-- ==== Sys2Proof/Word.lean ====
section
/-! DEFINITION. The byte and byte-sequence types (00_scope.md R9). -/

namespace Sys2Proof

/-- A byte of BUF, KEY, PAY or FT: a u8 (R6, R9). -/
abbrev Byte := BitVec 8

/-- A byte sequence (R9). -/
abbrev Bytes := List Byte

end Sys2Proof
end

