-- ==== Sys2Proof/Config.lean ====
section
/-! DEFINITION. What an implementation fixes (00_scope.md R6) and the values the spec leaves open. -/

namespace Sys2Proof

/-- TEXT_N_LENIENT (R6, 92_eei_decisions.md D10): a non-final text frame on a non-Empty tracker appends. Log 15. -/
def Config.textNLenient : Bool := true

/-- The unspecified cursor after an IOFailure (60_exceptions.md R186, U1), one number for each draw; the operation that
takes the failure brings it into CUR0 to BUFLEN. Log 5. -/
opaque Config.freeCursor : Nat → Nat

/-- The length bytes ENCODE would write for a sequence of `n` bytes where `n` is no u64: 43_encoder.md R161 defines
EncLen for a u64 only. Log 14. -/
opaque Config.freeLengthBytes : Nat → Bytes

/-- The OPEN parameters FT_CAP_BYTES and FT_CAP_CHUNKS (R6, D3); `none` is unbounded, the spec's default. Log 11. -/
structure Params where
  ftCapBytes  : Option Nat
  ftCapChunks : Option Nat
deriving DecidableEq, Repr

/-- The default parameters (R6). -/
def Params.default : Params := { ftCapBytes := none, ftCapChunks := none }

end Sys2Proof
end

