-- ==== Sys2Proof/Machine/Codec.lean ====
section
/-! DEFINITION. Byte order, the Mask Codec and the length serialisation, as functions of values alone
(20_memory.md R42, R43; 40_frontend.md R100; 43_encoder.md R161). -/

namespace Sys2Proof.Machine

/-- A big-endian unsigned integer from its bytes (R42, R43). -/
def beNat (s : Bytes) : Nat := s.foldl (fun v b => v * 256 + b.toNat) 0

/-- The `n` bytes of `v`, most significant first (R43, R161); `v` is below 256^n at every use. -/
def beBytes : Nat → Nat → Bytes
  | 0, _ => []
  | n + 1, v => BitVec.ofNat 8 (v / 256 ^ n) :: beBytes n v

/-- `be16(s)` of R10: the first two bytes of `s` as a big-endian number. -/
def be16 (s : Bytes) : Nat := beNat (s.take 2)

/-- The mask key KEY[0] to KEY[3], a byte array with no byte order (10_state.md R24). -/
structure Key where
  k0 : Byte
  k1 : Byte
  k2 : Byte
  k3 : Byte
deriving DecidableEq, Repr

/-- KEY from the four bytes read, in wire order (R94). -/
def Key.ofBytes (s : Bytes) : Key :=
  { k0 := s.getD 0 0, k1 := s.getD 1 0, k2 := s.getD 2 0, k3 := s.getD 3 0 }

/-- KEY in wire order. -/
def Key.toBytes (k : Key) : Bytes := [k.k0, k.k1, k.k2, k.k3]

/-- KEY[i mod 4] (R96). -/
def Key.byte (k : Key) (i : Nat) : Byte :=
  match i % 4 with
  | 0 => k.k0
  | 1 => k.k1
  | 2 => k.k2
  | _ => k.k3

/-- `s` masked with the key, its first byte standing at payload index `i`. -/
def maskFrom (k : Key) : Nat → Bytes → Bytes
  | _, [] => []
  | i, b :: s => (b ^^^ k.byte i) :: maskFrom k (i + 1) s

/-- `Mask(K, s)` (R100): t[i] = s[i] xor K[i mod 4], the index counted from the first payload byte. -/
def mask (k : Key) (s : Bytes) : Bytes := maskFrom k 0 s

/-- The three length classes (30_encoding.md R63). -/
inductive LenClass where
  | S
  | M
  | L
deriving DecidableEq, Repr

/-- The class of a 7-bit length field (R63). -/
def LenClass.ofLen7 (len7 : BitVec 7) : LenClass :=
  if len7.toNat ≤ 125 then .S else if len7.toNat = 126 then .M else .L

/-- EXT, the size of the extended length field: EXT16_BYTES and EXT64_BYTES (R6, R66). -/
def LenClass.extBytes : LenClass → Nat
  | .S => 0
  | .M => 2
  | .L => 8

/-- The lengths a class can carry (R63). -/
def LenClass.holds : LenClass → Nat → Bool
  | .S, n => n ≤ 125
  | .M, n => n < 2 ^ 16
  | .L, n => n < 2 ^ 64

/-- The shortest class that holds a length, as the encoder takes it (R161). -/
def LenClass.shortest (n : Nat) : LenClass :=
  if n ≤ 125 then .S else if n ≤ 65535 then .M else .L

/-- The 7-bit length field of a length in a class (R63). -/
def LenClass.len7 (n : Nat) : LenClass → BitVec 7
  | .S => BitVec.ofNat 7 n
  | .M => 126
  | .L => 127

/-- The extended length field of a length in a class, big-endian (R63). -/
def LenClass.ext (c : LenClass) (n : Nat) : Bytes := beBytes c.extBytes n

/-- `EncLen(L)` (R161): the length bytes of an emitted frame, the first being byte 1 with MASK clear. R161 takes a u64;
for a larger count the bytes are left free (log 14). -/
def encLen (n : Nat) : Bytes :=
  if n ≤ 125 then [BitVec.ofNat 8 n]
  else if n ≤ 65535 then 126 :: beBytes 2 n
  else if n < 2 ^ 64 then 127 :: beBytes 8 n
  else Config.freeLengthBytes n

/-- `DecLen(b1, ext)` (40_frontend.md R101): the value EXTLEN gives PAYLEN for a LEN7 field and the extended bytes. -/
def decLen (len7 : BitVec 7) (ext : Bytes) : Nat :=
  match LenClass.ofLen7 len7 with
  | .S => len7.toNat
  | .M | .L => beNat ext

end Sys2Proof.Machine
end

