-- ==== Sys2Proof/Syntax.lean ====
section
/-! DEFINITION. The instructions: one constructor per row of spec/opcode_table.json, and the logical units they return. -/

namespace Sys2Proof

/-- The status classification (10_state.md R31). -/
inductive Status where
  | normal
  | protocolError
  | invalidDataFormat
deriving DecidableEq, Repr

/-- A completed reassembled message, the `Some(...)` of a Continuation unit (10_state.md R30). -/
inductive Message where
  | text (s : Bytes)
  | binary (s : Bytes)
deriving DecidableEq, Repr

/-- A logical unit (10_state.md R30). -/
inductive LogicalUnit where
  /-- `none`: an intermediate fragment was consumed. -/
  | continuation (m : Option Message)
  | text (s : Bytes)
  | binary (s : Bytes)
  | close (status : Status)
  | ping (s : Bytes)
  | pong (s : Bytes)
deriving DecidableEq, Repr

/-- The four places where input can run out (60_exceptions.md R181). -/
inductive IOCause where
  | header
  | extlen
  | mask
  | payload
deriving DecidableEq, Repr

/-- The outcome of a PARSE transaction (10_state.md R29, 00_scope.md R11). -/
inductive ParseResult where
  | ok (u : LogicalUnit)
  | ioFailure (cause : IOCause)
deriving DecidableEq, Repr

/-- The five header fields of bytes 0 and 1 (30_encoding.md R61, R62; 10_state.md R22). -/
structure Header where
  fin    : Bool
  rsv    : BitVec 3
  opcode : BitVec 4
  masked : Bool
  len7   : BitVec 7
deriving DecidableEq, Repr

/-- The instructions. A received frame's operand is LEN7, the bits its row leaves free; the extended length, the key and
the payload follow in BUF and are read by the meaning (40_frontend.md R93 to R95). An HV row's operands are the header
bits it leaves free, less those that put the header under an earlier HV row (log 8). An EMIT row's operand is what its
unit carries. -/
inductive Instr where
  /-- HV.RSV1: bit 6 of byte 0 set (R72, R92). -/
  | hvRsv1 (fin : Bool) (rsv23 : BitVec 2) (opcode : BitVec 4) (masked : Bool) (len7 : BitVec 7)
  /-- HV.RSV2: bit 5 of byte 0 set, bit 6 clear (R72, R92). -/
  | hvRsv2 (fin : Bool) (rsv3 : Bool) (opcode : BitVec 4) (masked : Bool) (len7 : BitVec 7)
  /-- HV.RSV3: bit 4 of byte 0 set, bits 6 and 5 clear (R72, R92). -/
  | hvRsv3 (fin : Bool) (opcode : BitVec 4) (masked : Bool) (len7 : BitVec 7)
  /-- HV.NOMASK: bit 7 of byte 1 clear, RSV = 0 (R73, R92). -/
  | hvNomask (fin : Bool) (opcode : BitVec 4) (len7 : BitVec 7)
  /-- CONT.N, byte 0 = 0x00 (R111). -/
  | contN (len7 : BitVec 7)
  /-- TEXT.N, byte 0 = 0x01 (R112). -/
  | textN (len7 : BitVec 7)
  /-- BIN.N, byte 0 = 0x02 (R113). -/
  | binN (len7 : BitVec 7)
  /-- RSVD3.N, byte 0 = 0x03 (R135). -/
  | rsvd3N (len7 : BitVec 7)
  /-- RSVD4.N, byte 0 = 0x04 (R135). -/
  | rsvd4N (len7 : BitVec 7)
  /-- RSVD5.N, byte 0 = 0x05 (R135). -/
  | rsvd5N (len7 : BitVec 7)
  /-- RSVD6.N, byte 0 = 0x06 (R135). -/
  | rsvd6N (len7 : BitVec 7)
  /-- RSVD7.N, byte 0 = 0x07 (R135). -/
  | rsvd7N (len7 : BitVec 7)
  /-- CLOSE.N, byte 0 = 0x08 (R134). -/
  | closeN (len7 : BitVec 7)
  /-- PING.N, byte 0 = 0x09 (R134). -/
  | pingN (len7 : BitVec 7)
  /-- PONG.N, byte 0 = 0x0A (R134). -/
  | pongN (len7 : BitVec 7)
  /-- RSVDB.N, byte 0 = 0x0B (R135). -/
  | rsvdBN (len7 : BitVec 7)
  /-- RSVDC.N, byte 0 = 0x0C (R135). -/
  | rsvdCN (len7 : BitVec 7)
  /-- RSVDD.N, byte 0 = 0x0D (R135). -/
  | rsvdDN (len7 : BitVec 7)
  /-- RSVDE.N, byte 0 = 0x0E (R135). -/
  | rsvdEN (len7 : BitVec 7)
  /-- RSVDF.N, byte 0 = 0x0F (R135). -/
  | rsvdFN (len7 : BitVec 7)
  /-- CONT.F, byte 0 = 0x80 (R114). -/
  | contF (len7 : BitVec 7)
  /-- TEXT.F, byte 0 = 0x81 (R115). -/
  | textF (len7 : BitVec 7)
  /-- BIN.F, byte 0 = 0x82 (R116). -/
  | binF (len7 : BitVec 7)
  /-- RSVD3.F, byte 0 = 0x83 (R136). -/
  | rsvd3F (len7 : BitVec 7)
  /-- RSVD4.F, byte 0 = 0x84 (R136). -/
  | rsvd4F (len7 : BitVec 7)
  /-- RSVD5.F, byte 0 = 0x85 (R136). -/
  | rsvd5F (len7 : BitVec 7)
  /-- RSVD6.F, byte 0 = 0x86 (R136). -/
  | rsvd6F (len7 : BitVec 7)
  /-- RSVD7.F, byte 0 = 0x87 (R136). -/
  | rsvd7F (len7 : BitVec 7)
  /-- CLOSE.F, byte 0 = 0x88 (R130). -/
  | closeF (len7 : BitVec 7)
  /-- PING.F, byte 0 = 0x89 (R132). -/
  | pingF (len7 : BitVec 7)
  /-- PONG.F, byte 0 = 0x8A (R133). -/
  | pongF (len7 : BitVec 7)
  /-- RSVDB.F, byte 0 = 0x8B (R136). -/
  | rsvdBF (len7 : BitVec 7)
  /-- RSVDC.F, byte 0 = 0x8C (R136). -/
  | rsvdCF (len7 : BitVec 7)
  /-- RSVDD.F, byte 0 = 0x8D (R136). -/
  | rsvdDF (len7 : BitVec 7)
  /-- RSVDE.F, byte 0 = 0x8E (R136). -/
  | rsvdEF (len7 : BitVec 7)
  /-- RSVDF.F, byte 0 = 0x8F (R136). -/
  | rsvdFF (len7 : BitVec 7)
  /-- EMIT.TEXT: the frame of a Text unit (43_encoder.md R163). -/
  | emitText (s : Bytes)
  /-- EMIT.BIN: the frame of a Binary unit (R164). -/
  | emitBin (s : Bytes)
  /-- EMIT.REASM.TEXT: the frame of a completed text message (R162). -/
  | emitReasmText (s : Bytes)
  /-- EMIT.REASM.BIN: the frame of a completed binary message (R162). -/
  | emitReasmBin (s : Bytes)
  /-- EMIT.CLOSE: the close response (R165). -/
  | emitClose (status : Status)
  /-- EMIT.PONG: the reply to a ping, carrying the ping's payload (R166). -/
  | emitPong (s : Bytes)
deriving DecidableEq, Repr

end Sys2Proof
end

