-- ==== Sys2Proof/Decode.lean ====
section
/-! DEFINITION. PARSE's decoder of a frame header (30_encoding.md R61, R62, R70 to R73, R77; 40_frontend.md R98), then
the encoder of every instruction's header word, and the whole frame a client sends (R60). -/

namespace Sys2Proof

/-- The one way a header cannot be decoded: fewer than two bytes (40_frontend.md R91). -/
inductive DecodeError where
  | truncatedHeader
deriving DecidableEq, Repr

/-- The header fields of bytes 0 and 1 (R61, R62). -/
def Header.ofBytes (b0 b1 : Byte) : Header :=
  { fin := b0.getLsbD 7, rsv := b0.extractLsb' 4 3, opcode := b0.extractLsb' 0 4,
    masked := b1.getLsbD 7, len7 := b1.extractLsb' 0 7 }

/-- Frame kinds with FIN = 0, by opcode (R70, R98); a 4-bit number not named before the last arm is 0xF. -/
def nonFinalKind (opcode : BitVec 4) (len7 : BitVec 7) : Instr :=
  match opcode.toNat with
  | 0x0 => .contN len7
  | 0x1 => .textN len7
  | 0x2 => .binN len7
  | 0x3 => .rsvd3N len7
  | 0x4 => .rsvd4N len7
  | 0x5 => .rsvd5N len7
  | 0x6 => .rsvd6N len7
  | 0x7 => .rsvd7N len7
  | 0x8 => .closeN len7
  | 0x9 => .pingN len7
  | 0xA => .pongN len7
  | 0xB => .rsvdBN len7
  | 0xC => .rsvdCN len7
  | 0xD => .rsvdDN len7
  | 0xE => .rsvdEN len7
  | _ => .rsvdFN len7

/-- Frame kinds with FIN = 1, by opcode (R70, R98); a 4-bit number not named before the last arm is 0xF. -/
def finalKind (opcode : BitVec 4) (len7 : BitVec 7) : Instr :=
  match opcode.toNat with
  | 0x0 => .contF len7
  | 0x1 => .textF len7
  | 0x2 => .binF len7
  | 0x3 => .rsvd3F len7
  | 0x4 => .rsvd4F len7
  | 0x5 => .rsvd5F len7
  | 0x6 => .rsvd6F len7
  | 0x7 => .rsvd7F len7
  | 0x8 => .closeF len7
  | 0x9 => .pingF len7
  | 0xA => .pongF len7
  | 0xB => .rsvdBF len7
  | 0xC => .rsvdCF len7
  | 0xD => .rsvdDF len7
  | 0xE => .rsvdEF len7
  | _ => .rsvdFF len7

/-- The instruction of a header: a violation if an RSV bit is set or MASK is clear (R72, R73, R92), else the kind of
(FIN, OPCODE) (R98). Where several HV rows match, the first of RSV1, RSV2, RSV3, NOMASK names it (log 8). -/
def decodeHeader (h : Header) : Instr :=
  if h.rsv.getLsbD 2 then .hvRsv1 h.fin (h.rsv.extractLsb' 0 2) h.opcode h.masked h.len7
  else if h.rsv.getLsbD 1 then .hvRsv2 h.fin (h.rsv.getLsbD 0) h.opcode h.masked h.len7
  else if h.rsv.getLsbD 0 then .hvRsv3 h.fin h.opcode h.masked h.len7
  else if !h.masked then .hvNomask h.fin h.opcode h.len7
  else if h.fin then finalKind h.opcode h.len7
  else nonFinalKind h.opcode h.len7

/-- Decodes the header at the front of a byte sequence; the rest is what follows byte 1. -/
def decode : Bytes → Except DecodeError (Instr × Bytes)
  | b0 :: b1 :: rest => .ok (decodeHeader (Header.ofBytes b0 b1), rest)
  | _ => .error .truncatedHeader

/-- The bytes an opcode-table number stands for. The table numbers a header as H = byte0 * 256 + byte1 (R77), so each
16-bit word is laid out with its high byte first (log 19). -/
def tableBytes (nbits w : Nat) : Bytes :=
  (List.range ((nbits + 15) / 16)).flatMap fun k => Machine.beBytes 2 (w / 65536 ^ k % 65536)

/-- The instruction the decoder reads from an opcode-table number, operand bytes of zeros following (log 19). -/
def decodeTableWord (nbits w : Nat) : Option Instr :=
  match decode (tableBytes nbits w) with
  | .ok (i, _) => some i
  | .error _ => none

/-- Byte 0 of a header (R61). -/
def Header.byte0 (h : Header) : Byte := BitVec.ofBool h.fin ++ h.rsv ++ h.opcode

/-- Byte 1 of a header (R62). -/
def Header.byte1 (h : Header) : Byte := BitVec.ofBool h.masked ++ h.len7

/-- The header of a received frame: RSV = 0, MASK = 1 (R70). -/
def Header.received (fin : Bool) (opcode : BitVec 4) (len7 : BitVec 7) : Header :=
  { fin, rsv := 0, opcode, masked := true, len7 }

/-- The header of an emitted frame: FIN = 1, RSV = 0, MASK = 0 (R75). -/
def Header.emitted (opcode : BitVec 4) (len7 : BitVec 7) : Header :=
  { fin := true, rsv := 0, opcode, masked := false, len7 }

/-- LEN7 of an emitted frame whose length goes through EncLen (43_encoder.md R161). -/
def emittedLen7 (s : Bytes) : BitVec 7 := (Machine.LenClass.shortest s.length).len7 s.length

/-- The header of each instruction, row by row of opcode_table.json. -/
def Header.ofInstr : Instr → Header
  | .hvRsv1 fin rsv23 opcode masked len7 => { fin, rsv := 1#1 ++ rsv23, opcode, masked, len7 }
  | .hvRsv2 fin rsv3 opcode masked len7 => { fin, rsv := 1#2 ++ BitVec.ofBool rsv3, opcode, masked, len7 }
  | .hvRsv3 fin opcode masked len7 => { fin, rsv := 1, opcode, masked, len7 }
  | .hvNomask fin opcode len7 => { fin, rsv := 0, opcode, masked := false, len7 }
  | .contN len7 => .received false 0x0 len7
  | .textN len7 => .received false 0x1 len7
  | .binN len7 => .received false 0x2 len7
  | .rsvd3N len7 => .received false 0x3 len7
  | .rsvd4N len7 => .received false 0x4 len7
  | .rsvd5N len7 => .received false 0x5 len7
  | .rsvd6N len7 => .received false 0x6 len7
  | .rsvd7N len7 => .received false 0x7 len7
  | .closeN len7 => .received false 0x8 len7
  | .pingN len7 => .received false 0x9 len7
  | .pongN len7 => .received false 0xA len7
  | .rsvdBN len7 => .received false 0xB len7
  | .rsvdCN len7 => .received false 0xC len7
  | .rsvdDN len7 => .received false 0xD len7
  | .rsvdEN len7 => .received false 0xE len7
  | .rsvdFN len7 => .received false 0xF len7
  | .contF len7 => .received true 0x0 len7
  | .textF len7 => .received true 0x1 len7
  | .binF len7 => .received true 0x2 len7
  | .rsvd3F len7 => .received true 0x3 len7
  | .rsvd4F len7 => .received true 0x4 len7
  | .rsvd5F len7 => .received true 0x5 len7
  | .rsvd6F len7 => .received true 0x6 len7
  | .rsvd7F len7 => .received true 0x7 len7
  | .closeF len7 => .received true 0x8 len7
  | .pingF len7 => .received true 0x9 len7
  | .pongF len7 => .received true 0xA len7
  | .rsvdBF len7 => .received true 0xB len7
  | .rsvdCF len7 => .received true 0xC len7
  | .rsvdDF len7 => .received true 0xD len7
  | .rsvdEF len7 => .received true 0xE len7
  | .rsvdFF len7 => .received true 0xF len7
  | .emitText s => .emitted 0x1 (emittedLen7 s)
  | .emitBin s => .emitted 0x2 (emittedLen7 s)
  | .emitReasmText s => .emitted 0x1 (emittedLen7 s)
  | .emitReasmBin s => .emitted 0x2 (emittedLen7 s)
  | .emitClose _ => .emitted 0x8 2
  | .emitPong s => .emitted 0xA (BitVec.ofNat 7 s.length)

/-- The header word of an instruction, byte 0 first. -/
def encode (i : Instr) : Bytes := [(Header.ofInstr i).byte0, (Header.ofInstr i).byte1]

/-- The header word as the opcode table numbers it: H = byte0 * 256 + byte1 (R77). -/
def headerWord (i : Instr) : Nat := Machine.beNat (encode i)

/-- `mask` and `match` of an instruction's row in opcode_table.json (R77). -/
def tableRow : Instr → Nat × Nat
  | .hvRsv1 .. => (0x4000, 0x4000)
  | .hvRsv2 .. => (0x2000, 0x2000)
  | .hvRsv3 .. => (0x1000, 0x1000)
  | .hvNomask .. => (0x0080, 0x0000)
  | .contN _ => (0xFF80, 0x0080)
  | .textN _ => (0xFF80, 0x0180)
  | .binN _ => (0xFF80, 0x0280)
  | .rsvd3N _ => (0xFF80, 0x0380)
  | .rsvd4N _ => (0xFF80, 0x0480)
  | .rsvd5N _ => (0xFF80, 0x0580)
  | .rsvd6N _ => (0xFF80, 0x0680)
  | .rsvd7N _ => (0xFF80, 0x0780)
  | .closeN _ => (0xFF80, 0x0880)
  | .pingN _ => (0xFF80, 0x0980)
  | .pongN _ => (0xFF80, 0x0A80)
  | .rsvdBN _ => (0xFF80, 0x0B80)
  | .rsvdCN _ => (0xFF80, 0x0C80)
  | .rsvdDN _ => (0xFF80, 0x0D80)
  | .rsvdEN _ => (0xFF80, 0x0E80)
  | .rsvdFN _ => (0xFF80, 0x0F80)
  | .contF _ => (0xFF80, 0x8080)
  | .textF _ => (0xFF80, 0x8180)
  | .binF _ => (0xFF80, 0x8280)
  | .rsvd3F _ => (0xFF80, 0x8380)
  | .rsvd4F _ => (0xFF80, 0x8480)
  | .rsvd5F _ => (0xFF80, 0x8580)
  | .rsvd6F _ => (0xFF80, 0x8680)
  | .rsvd7F _ => (0xFF80, 0x8780)
  | .closeF _ => (0xFF80, 0x8880)
  | .pingF _ => (0xFF80, 0x8980)
  | .pongF _ => (0xFF80, 0x8A80)
  | .rsvdBF _ => (0xFF80, 0x8B80)
  | .rsvdCF _ => (0xFF80, 0x8C80)
  | .rsvdDF _ => (0xFF80, 0x8D80)
  | .rsvdEF _ => (0xFF80, 0x8E80)
  | .rsvdFF _ => (0xFF80, 0x8F80)
  | .emitText _ => (0xFF80, 0x8100)
  | .emitBin _ => (0xFF80, 0x8200)
  | .emitReasmText _ => (0xFF80, 0x8100)
  | .emitReasmBin _ => (0xFF80, 0x8200)
  | .emitClose _ => (0xFF80, 0x8800)
  | .emitPong _ => (0xFF80, 0x8A00)

/-- A whole frame as a client sends it (30_encoding.md R60, R76): header, extended length, key, payload masked with the
key. The class must hold the payload's length. -/
def clientFrame (fin : Bool) (opcode : BitVec 4) (c : Machine.LenClass) (key : Machine.Key) (payload : Bytes) : Bytes :=
  let h := Header.received fin opcode (c.len7 payload.length)
  [h.byte0, h.byte1] ++ c.ext payload.length ++ key.toBytes ++ Machine.mask key payload

end Sys2Proof
end

