-- ==== Sys2Proof/Machine/Utf8.lean ====
section
/-! DEFINITION. `utf8_valid` (00_scope.md R12): the table of well-formed sequences, and the check over a whole byte
sequence. -/

namespace Sys2Proof.Machine

/-- `lo..hi` as a cell of R12's table, both ends included. -/
def inRange (lo hi : Nat) (b : Byte) : Bool := lo ≤ b.toNat && b.toNat ≤ hi

/-- 80..BF, the range of every byte of R12's table but some second bytes. -/
def isTail (b : Byte) : Bool := inRange 0x80 0xBF b

/-- The one-byte row of R12. -/
def utf8One (a : Byte) : Bool := inRange 0x00 0x7F a

/-- The two-byte row of R12. -/
def utf8Two (a b : Byte) : Bool := inRange 0xC2 0xDF a && isTail b

/-- The first two bytes of R12's three-byte rows: E0, E1..EC, ED, EE..EF. -/
def utf8ThreeLead (a b : Byte) : Bool :=
  (inRange 0xE0 0xE0 a && inRange 0xA0 0xBF b) || (inRange 0xE1 0xEC a && isTail b) ||
  (inRange 0xED 0xED a && inRange 0x80 0x9F b) || (inRange 0xEE 0xEF a && isTail b)

/-- The first two bytes of R12's four-byte rows: F0, F1..F3, F4. -/
def utf8FourLead (a b : Byte) : Bool :=
  (inRange 0xF0 0xF0 a && inRange 0x90 0xBF b) || (inRange 0xF1 0xF3 a && isTail b) ||
  (inRange 0xF4 0xF4 a && inRange 0x80 0x8F b)

/-- `utf8_valid(s)` (R12), reading one well-formed sequence after another from the front. -/
def utf8Valid : Bytes → Bool
  | [] => true
  | a :: s =>
    if utf8One a then utf8Valid s
    else match s with
      | [] => false
      | b :: s =>
        if utf8Two a b then utf8Valid s
        else match s with
          | [] => false
          | c :: s =>
            if utf8ThreeLead a b && isTail c then utf8Valid s
            else match s with
              | [] => false
              | d :: s => utf8FourLead a b && isTail c && isTail d && utf8Valid s

end Sys2Proof.Machine
end

