-- ==== Sys2Proof/WellFormed.lean ====
section
/-! DEFINITION. When a unit and an instruction are well formed. A received frame's or violation's header always is: its
operands have the fields' widths. An emitted frame is well formed when a unit of the spec calls for it. -/

namespace Sys2Proof

/-- A byte count that EncLen takes: a u64 (43_encoder.md R161). -/
def lengthOk (s : Bytes) : Bool := s.length < 2 ^ 64

/-- "A `Text` variant's payload is always valid UTF-8" (10_state.md R30); so is a completed text message's. -/
def Message.wf : Message → Bool
  | .text s => Machine.utf8Valid s
  | .binary _ => true

/-- What every logical unit satisfies (10_state.md R30): valid text, and a ping of at most 125 bytes. A pong has no
bound (42_control_frames.md R133). -/
def LogicalUnit.wf : LogicalUnit → Bool
  | .continuation none => true
  | .continuation (some m) => m.wf
  | .text s => Machine.utf8Valid s
  | .binary _ => true
  | .close _ => true
  | .ping s => s.length ≤ 125
  | .pong _ => true

/-- An outcome carries a well-formed unit. -/
def ParseResult.wf : ParseResult → Bool
  | .ok u => u.wf
  | .ioFailure _ => true

/-- Well-formed instructions. -/
def Instr.wellFormed : Instr → Bool
  | .emitText s => lengthOk s && Machine.utf8Valid s
  | .emitBin s => lengthOk s
  | .emitReasmText s => lengthOk s && Machine.utf8Valid s
  | .emitReasmBin s => lengthOk s
  | .emitPong s => s.length ≤ 125
  | .hvRsv1 .. | .hvRsv2 .. | .hvRsv3 .. | .hvNomask .. => true
  | .contN _ | .textN _ | .binN _ | .rsvd3N _ | .rsvd4N _ | .rsvd5N _ | .rsvd6N _ | .rsvd7N _ => true
  | .closeN _ | .pingN _ | .pongN _ | .rsvdBN _ | .rsvdCN _ | .rsvdDN _ | .rsvdEN _ | .rsvdFN _ => true
  | .contF _ | .textF _ | .binF _ | .rsvd3F _ | .rsvd4F _ | .rsvd5F _ | .rsvd6F _ | .rsvd7F _ => true
  | .closeF _ | .pingF _ | .pongF _ | .rsvdBF _ | .rsvdCF _ | .rsvdDF _ | .rsvdEF _ | .rsvdFF _ => true
  | .emitClose _ => true

end Sys2Proof
end

