-- ==== Sys2Proof/Machine/State.lean ====
section
/-! DEFINITION. Everything the spec gives the machine (10_state.md R20), the inputs it is given (R32), and the host's
requests; the reasons a step can stop; the state after reset (R35, R210). -/

namespace Sys2Proof.Machine

/-- BUF and BUFLEN (20_memory.md R40): `size` is BUFLEN, and `cells` lists the bytes that are not 00, by rising offset.
An offset below `size` that is not listed holds `Memory.unlisted` (log 6). -/
structure Memory where
  size  : Nat
  cells : List Host.Cell
deriving DecidableEq, Repr

/-- What an unlisted offset below BUFLEN reads as (log 6). -/
def Memory.unlisted : Byte := 0

/-- Offsets rise strictly, from at least `lo`. -/
def risingFrom : Nat → List Host.Cell → Bool
  | _, [] => true
  | lo, (a, _) :: rest => lo ≤ a && risingFrom (a + 1) rest

/-- The canonical form: offsets rising strictly and below BUFLEN, no listed byte the one an unlisted offset reads as. -/
def Memory.wf (m : Memory) : Bool :=
  risingFrom 0 m.cells && m.cells.all fun c => c.1 < m.size && c.2 != Memory.unlisted

/-- The empty buffer. -/
def Memory.empty : Memory := { size := 0, cells := [] }

/-- FT.shape (10_state.md R26). -/
inductive Shape where
  | text
  | binary
deriving DecidableEq, Repr

/-- The Fragmentation Tracker FT (R26): a shape and the chunks in arrival order. -/
structure Tracker where
  shape  : Shape
  chunks : List Bytes
deriving DecidableEq, Repr

/-- The tracker at connection start: no chunk (R35, R210). Its shape is unspecified there and not observable (log 3). -/
def Tracker.reset : Tracker := { shape := .text, chunks := [] }

/-- What the host asks for, one transaction or event each (log 1). -/
inductive Request where
  /-- A PARSE of `buf` from `cur0` (40_frontend.md R90). -/
  | parse (buf : Memory) (cur0 : Nat)
  /-- A PARSE of the next frame of the same buffer, at the CUR the last one returned (R97, 20_memory.md R47). -/
  | parseNext
  /-- After an IOFailure: a PARSE of a re-filled buffer from the same offset (60_exceptions.md R188). -/
  | retry (buf : Memory)
  /-- An ENCODE of a unit (43_encoder.md R160). -/
  | encode (u : LogicalUnit)
  /-- Connection start (70_reset_and_hazards.md R210). -/
  | reset
deriving DecidableEq, Repr

/-- The state. INVENTORY.md lists every field with its rule and its reset value. -/
structure State where
  /-- The OPEN parameters of R6, fixed by the host for the machine; no step writes them. -/
  params  : Params
  /-- FT. -/
  ft      : Tracker
  /-- BUF and BUFLEN. -/
  buf     : Memory
  /-- CUR0, the cursor the transaction started at. -/
  cur0    : Nat
  /-- CUR. -/
  cur     : Nat
  /-- FIN. -/
  fin     : Bool
  /-- RSV. -/
  rsv     : BitVec 3
  /-- OPCODE. -/
  opcode  : BitVec 4
  /-- MASKED. -/
  masked  : Bool
  /-- LEN7. -/
  len7    : BitVec 7
  /-- PAYLEN. -/
  paylen  : BitVec 64
  /-- KEY. -/
  key     : Key
  /-- PAY. -/
  pay     : Bytes
  /-- The outcome of the last PARSE; none before the first ends. -/
  outcome : Option ParseResult
  /-- The result of the last ENCODE (`some none` is the spec's None); none before the first ends. The model's own. -/
  emitted : Option (Option Bytes)
  /-- The host's requests, the oldest first. The model's own. -/
  pending : List Request
  /-- How many free values have been drawn. The model's own. -/
  draws   : Nat
deriving DecidableEq, Repr

/-- Why the machine may fault. -/
inductive Fault where
  /-- A read of BUF at an offset that does not exist (00_scope.md R10: defined only when addr + n <= BUFLEN). Raised by
  `readBytes`; safe. Every rule tests `avail` first, and 20_memory.md R53 says it cannot occur. Log 21. -/
  | readOutsideBuffer
deriving DecidableEq, Repr

/-- Why the machine may refuse. -/
inductive Refusal where
  /-- `exec`, for an instruction without a meaning; no arm does. Safe. -/
  | notModelled (mnemonic : String)
  /-- `beginParse`: CUR0 > BUFLEN, "refuse" in 93_implementation_defined.md U12. Safe. Log 9. -/
  | cursorBeyondBuffer
  /-- `beginParse`: BUFLEN is not below 2^64, which 00_scope.md R6 demands of the host. Safe. Log 9. -/
  | bufferTooLong
  /-- `serve`: parseNext where the last transaction returned no usable cursor, "no meaning" in
  70_reset_and_hazards.md R217. Safe. Log 9. -/
  | noReturnedCursor
  /-- `ftWrite`: a tracker write beyond a finite capacity, "refuse" in 20_memory.md R49 and U6. Safe. Log 11. -/
  | ftCapacity
  /-- `execEmitPong`: a Ping unit of more than 125 bytes, "refuse" in U7. Safe. Log 13. -/
  | pingTooLong
deriving DecidableEq, Repr

/-- The machine right after reset (10_state.md R35, 70_reset_and_hazards.md R210): the tracker Empty, no outcome, no
transaction. The field registers (log 2), the shape (log 3), BUF and the cursors (log 4) have named values. -/
def State.reset : State :=
  { params := Params.default, ft := Tracker.reset, buf := Memory.empty, cur0 := 0, cur := 0,
    fin := false, rsv := 0, opcode := 0, masked := false, len7 := 0, paylen := 0,
    key := { k0 := 0, k1 := 0, k2 := 0, k3 := 0 }, pay := [],
    outcome := none, emitted := none, pending := [], draws := 0 }

/-- CUR <- CUR + n (20_memory.md R42). -/
def State.advance (s : State) (n : Nat) : State := { s with cur := s.cur + n }

/-- The operands of a PARSE: BUF, BUFLEN and CUR0, and CUR <- CUR0 (40_frontend.md R90). -/
def State.load (s : State) (buf : Memory) (cur0 : Nat) : State := { s with buf := buf, cur0 := cur0, cur := cur0 }

/-- Writes FIN, RSV, OPCODE, MASKED and LEN7 together (10_state.md R22). -/
def State.latch (s : State) (h : Header) : State :=
  { s with fin := h.fin, rsv := h.rsv, opcode := h.opcode, masked := h.masked, len7 := h.len7 }

/-- PAYLEN <- v. -/
def State.setPaylen (s : State) (v : BitVec 64) : State := { s with paylen := v }

/-- KEY <- k. -/
def State.setKey (s : State) (k : Key) : State := { s with key := k }

/-- PAY <- p. -/
def State.setPay (s : State) (p : Bytes) : State := { s with pay := p }

/-- FT <- t. -/
def State.setFt (s : State) (t : Tracker) : State := { s with ft := t }

/-- The outcome of the transaction. -/
def State.setOutcome (s : State) (r : ParseResult) : State := { s with outcome := some r }

/-- The result of an ENCODE. -/
def State.setEmitted (s : State) (r : Option Bytes) : State := { s with emitted := some r }

/-- CUR <- a drawn value. -/
def State.drawCur (s : State) (c : Nat) : State := { s with cur := c, draws := s.draws + 1 }

/-- The requests still to be served. -/
def State.setPending (s : State) (q : List Request) : State := { s with pending := q }

end Sys2Proof.Machine
end

