-- ==== Sys2Proof/Machine/Flags.lean ====
section
/-! DEFINITION. The machine has no condition codes; its only flag-like state is FT.shape and the predicate FT.empty
(10_state.md R33). The operations on the Fragmentation Tracker (20_memory.md R48) and its capacity (R49). -/

namespace Sys2Proof.Machine

/-- `FT.empty`: no chunk, whatever the bytes (10_state.md R26, D12). -/
def Tracker.isEmpty (t : Tracker) : Bool := t.chunks.isEmpty

/-- `FT.concat()`: the chunks in arrival order. -/
def Tracker.concat (t : Tracker) : Bytes := t.chunks.flatten

/-- `FT.append(s)`: shape unchanged. -/
def Tracker.append (t : Tracker) (s : Bytes) : Tracker := { t with chunks := t.chunks ++ [s] }

/-- `FT.reset_binary(s)`: every earlier chunk is discarded. -/
def Tracker.resetBinary (_ : Tracker) (s : Bytes) : Tracker := { shape := .binary, chunks := [s] }

/-- `FT.start_text(s)`. -/
def Tracker.startText (_ : Tracker) (s : Bytes) : Tracker := { shape := .text, chunks := [s] }

/-- `FT.drain()`: the shape is left as it was. -/
def Tracker.drain (t : Tracker) : Tracker := { t with chunks := [] }

/-- The count is within a capacity; `none` is unbounded (R49). -/
def withinCap (cap : Option Nat) (n : Nat) : Bool :=
  match cap with
  | none => true
  | some c => n ≤ c

/-- The tracker, as a write would leave it, is within both capacities (R49; log 11). -/
def admits (p : Params) (t : Tracker) : Bool :=
  withinCap p.ftCapBytes t.concat.length && withinCap p.ftCapChunks t.chunks.length

end Sys2Proof.Machine
end

