-- ==== Sys2Proof/Machine/Ops.lean ====
section
/-! DEFINITION. The named operations every transaction shares: reads of BUF (20_memory.md R42), the end of a
transaction on either channel (60_exceptions.md R180), the tracker write (20_memory.md R49), the header step and the
start of a PARSE (40_frontend.md R90, R91). Each operation that reads takes what to do next as its last argument. -/

namespace Sys2Proof.Machine

/-- How a step ends. -/
abbrev Result := Host.Outcome State Fault Refusal

/-- The byte the list gives an offset. -/
def cellAt : List Host.Cell → Nat → Byte
  | [], _ => Memory.unlisted
  | (k, b) :: rest, a => if k = a then b else cellAt rest a

/-- BUF[a], for an offset below BUFLEN. -/
def Memory.get (m : Memory) (a : Nat) : Byte := cellAt m.cells a

/-- BUF[a], BUF[a + 1], …, n bytes, with no test of the bounds. -/
def Memory.slice (m : Memory) (a : Nat) : Nat → Bytes
  | 0 => []
  | n + 1 => m.get a :: m.slice (a + 1) n

/-- `BufBytes(a, n)`: defined only when a + n <= BUFLEN (00_scope.md R10). -/
def Memory.bytes? (m : Memory) (a n : Nat) : Option Bytes :=
  if a + n ≤ m.size then some (m.slice a n) else none

/-- The cells of a byte sequence placed from offset `a` up. -/
def cellsFrom : Nat → Bytes → List Host.Cell
  | _, [] => []
  | a, b :: s => if b = Memory.unlisted then cellsFrom (a + 1) s else (a, b) :: cellsFrom (a + 1) s

/-- The buffer a host makes of the bytes it has received, the first at offset 0. -/
def Memory.ofBytes (s : Bytes) : Memory := { size := s.length, cells := cellsFrom 0 s }

/-- `avail` = BUFLEN - CUR (R42). -/
def State.avail (s : State) : Nat := s.buf.size - s.cur

/-- `ReadBytes(n)` (R42); the caller has made the `requires` test. -/
def readBytes (n : Nat) (s : State) (k : Bytes → State → Result) : Result :=
  match s.buf.bytes? s.cur n with
  | some bs => k bs (s.advance n)
  | none => .fault .readOutsideBuffer

/-- `ReadU8()` (R42). -/
def readU8 (s : State) (k : Byte → State → Result) : Result :=
  readBytes 1 s fun bs s => k (bs.getD 0 0) s

/-- `ReadBE16()` (R42, R43). -/
def readBE16 (s : State) (k : BitVec 16 → State → Result) : Result :=
  readBytes 2 s fun bs s => k (BitVec.ofNat 16 (beNat bs)) s

/-- `ReadBE64()` (R42, R43). -/
def readBE64 (s : State) (k : BitVec 64 → State → Result) : Result :=
  readBytes 8 s fun bs s => k (BitVec.ofNat 64 (beNat bs)) s

/-- The unspecified cursor an IOFailure leaves: some value in CUR0 to BUFLEN (60_exceptions.md R186; log 5). -/
def State.unspecifiedCur (s : State) : Nat :=
  s.cur0 + Config.freeCursor s.draws % (s.buf.size + 1 - s.cur0)

/-- `raise IOFailure(cause)`: the one way an exception is taken (60_exceptions.md R186). The outcome is Err, CUR is
unspecified, FT is as it was, nothing is saved and control returns to the host. -/
def raiseIOFailure (cause : IOCause) (s : State) : Result :=
  .next ((s.drawCur s.unspecifiedCur).setOutcome (.ioFailure cause))

/-- `return U`: the transaction ends on the success channel (00_scope.md R10, R11; 10_state.md R29). -/
def deliver (u : LogicalUnit) (s : State) : Result := .next (s.setOutcome (.ok u))

/-- A write of FT, within the capacity or refused (20_memory.md R49). -/
def ftWrite (t : Tracker) (s : State) (k : State → Result) : Result :=
  if admits s.params t then k (s.setFt t) else .refused .ftCapacity

/-- Step HDR (40_frontend.md R91). -/
def readHeader (s : State) (k : State → Result) : Result :=
  if s.avail < 2 then raiseIOFailure .header s
  else readU8 s fun b0 s => readU8 s fun b1 s => k (s.latch (Header.ofBytes b0 b1))

/-- The instruction the header registers select: HCHK and DISPATCH's choice (40_frontend.md R92, R98). -/
def State.selected (s : State) : Instr :=
  decodeHeader { fin := s.fin, rsv := s.rsv, opcode := s.opcode, masked := s.masked, len7 := s.len7 }

/-- PARSE(BUF, BUFLEN, CUR0, FT) (40_frontend.md R90), `run` being the meaning of the selected instruction. A cursor
beyond the buffer (U12) or a BUFLEN of 2^64 or more (R6) is outside PARSE's domain (log 9). -/
def beginParse (run : Instr → State → Result) (buf : Memory) (cur0 : Nat) (s : State) : Result :=
  if 2 ^ 64 ≤ buf.size then .refused .bufferTooLong
  else if buf.size < cur0 then .refused .cursorBeyondBuffer
  else readHeader (s.load buf cur0) fun s => run s.selected s

/-- The return from an IOFailure (60_exceptions.md R188): the frame is parsed again from the original read offset, on
the buffer the host has re-filled, with FT as the failure left it. -/
def retryParse (run : Instr → State → Result) (buf : Memory) (s : State) : Result :=
  beginParse run buf s.cur0 s

/-- Reset, the source's connection start (70_reset_and_hazards.md R210): FT Empty, the rest as after reset. The
parameters, the host's other requests and the count of draws are not the instance's (log 20). -/
def State.restart (s : State) : State :=
  { State.reset with params := s.params, pending := s.pending, draws := s.draws }

end Sys2Proof.Machine
end

