-- ==== Sys2Proof/Machine/Operands.lean ====
section
/-! DEFINITION. The operands of a received frame, read in the order of 40_frontend.md R90: EXTLEN, KEY, PAYLOAD,
UNMASK. -/

namespace Sys2Proof.Machine

/-- Step EXTLEN (R93): no check of the value (30_encoding.md R64). -/
def extLen (len7 : BitVec 7) (s : State) (k : State → Result) : Result :=
  match LenClass.ofLen7 len7 with
  | .S => k (s.setPaylen (len7.setWidth 64))
  | .M =>
    if s.avail < 2 then raiseIOFailure .extlen s
    else readBE16 s fun v s => k (s.setPaylen (v.setWidth 64))
  | .L =>
    if s.avail < 8 then raiseIOFailure .extlen s
    else readBE64 s fun v s => k (s.setPaylen v)

/-- Step KEY (R94): run for every frame, an empty one too. -/
def readKey (s : State) (k : State → Result) : Result :=
  if s.avail < 4 then raiseIOFailure .mask s
  else readBytes 4 s fun bs s => k (s.setKey (Key.ofBytes bs))

/-- Steps PAYLOAD and UNMASK (R95, R96). -/
def readPayload (s : State) (k : State → Result) : Result :=
  if s.avail < s.paylen.toNat then raiseIOFailure .payload s
  else readBytes s.paylen.toNat s fun w s => k (s.setPay (mask s.key w))

/-- Everything between the header and DISPATCH. -/
def readFrame (len7 : BitVec 7) (s : State) (dispatch : State → Result) : Result :=
  extLen len7 s fun s => readKey s fun s => readPayload s dispatch

end Sys2Proof.Machine
end

