-- ==== Sys2Proof/Machine/ControlFrames.lean ====
section
/-! DEFINITION. The meanings of the control frames and the Close-Frame Validator (42_control_frames.md R130 to R133).
None reads or writes FT (R137). -/

namespace Sys2Proof.Machine

/-- CTRL_MAX, the largest payload of a close or ping frame (00_scope.md R6). -/
abbrev ctrlMax : Nat := 125

/-- CLOSE_ALLOW, 13 single values (R131, U9; log 16). -/
def closeAllow : List Nat := [1000, 1001, 1002, 1003, 1007, 1008, 1009, 1010, 1011, 3000, 3999, 4000, 4999]

/-- CFV (R131): an invalid reason gives ProtocolError, and the peer's code is never echoed. -/
def closeVerdict (p : Bytes) : Status :=
  if !closeAllow.contains (be16 p) then .protocolError
  else if !utf8Valid (p.drop 2) then .protocolError
  else .normal

/-- CLOSE.F (R130). -/
def execCloseF (len7 : BitVec 7) (s : State) : Result :=
  readFrame len7 s fun s =>
    if s.paylen.toNat = 0 then deliver (.close .normal) s
    else if 2 ≤ s.paylen.toNat && s.paylen.toNat ≤ ctrlMax then deliver (.close (closeVerdict s.pay)) s
    else deliver (.close .protocolError) s

/-- PING.F (R132). -/
def execPingF (len7 : BitVec 7) (s : State) : Result :=
  readFrame len7 s fun s =>
    if s.paylen.toNat ≤ ctrlMax then deliver (.ping s.pay) s
    else deliver (.close .protocolError) s

/-- PONG.F (R133): no length restriction. -/
def execPongF (len7 : BitVec 7) (s : State) : Result :=
  readFrame len7 s fun s => deliver (.pong s.pay) s

end Sys2Proof.Machine
end

