-- ==== Sys2Proof/Machine/DataFrames.lean ====
section
/-! DEFINITION. The meanings of the data frames and the fragmentation state machine (41_data_frames.md). A rule that
returns a Close does not write FT (R110). -/

namespace Sys2Proof.Machine

/-- CONT.N (R111). -/
def execContN (len7 : BitVec 7) (s : State) : Result :=
  readFrame len7 s fun s =>
    if s.ft.isEmpty then deliver (.close .protocolError) s
    else ftWrite (s.ft.append s.pay) s fun s => deliver (.continuation none) s

/-- TEXT.N (R112): on a non-Empty tracker it appends, whatever the shape (D10, D21). -/
def execTextN (len7 : BitVec 7) (s : State) : Result :=
  readFrame len7 s fun s =>
    if s.ft.isEmpty then ftWrite (s.ft.startText s.pay) s fun s => deliver (.continuation none) s
    else if Config.textNLenient then ftWrite (s.ft.append s.pay) s fun s => deliver (.continuation none) s
    else deliver (.close .protocolError) s

/-- BIN.N (R113): a message in progress is discarded. -/
def execBinN (len7 : BitVec 7) (s : State) : Result :=
  readFrame len7 s fun s =>
    ftWrite (s.ft.resetBinary s.pay) s fun s => deliver (.continuation none) s

/-- CONT.F (R114): the UTF-8 check covers the whole message, this payload included (D11). -/
def execContF (len7 : BitVec 7) (s : State) : Result :=
  readFrame len7 s fun s =>
    if s.ft.isEmpty then deliver (.close .protocolError) s
    else
      let m := s.ft.concat ++ s.pay
      match s.ft.shape with
      | .text =>
        if utf8Valid m then deliver (.continuation (some (.text m))) (s.setFt s.ft.drain)
        else deliver (.close .invalidDataFormat) s
      | .binary => deliver (.continuation (some (.binary m))) (s.setFt s.ft.drain)

/-- TEXT.F (R115): the tracker test before the UTF-8 test. -/
def execTextF (len7 : BitVec 7) (s : State) : Result :=
  readFrame len7 s fun s =>
    if !s.ft.isEmpty then deliver (.close .protocolError) s
    else if utf8Valid s.pay then deliver (.text s.pay) s
    else deliver (.close .invalidDataFormat) s

/-- BIN.F (R116). -/
def execBinF (len7 : BitVec 7) (s : State) : Result :=
  readFrame len7 s fun s =>
    if !s.ft.isEmpty then deliver (.close .protocolError) s
    else deliver (.binary s.pay) s

end Sys2Proof.Machine
end

