-- ==== Sys2Proof/Machine/Encoder.lean ====
section
/-! DEFINITION. ENCODE (43_encoder.md): the meanings of the frames it emits, and which of them a unit calls for. ENCODE
reads no state and touches neither FT, BUF nor CUR (R160); its result stands in `emitted` (log 7). -/

namespace Sys2Proof.Machine

/-- The end of an ENCODE. -/
def emit (r : Option Bytes) (s : State) : Result := .next (s.setEmitted r)

/-- A frame with FIN = 1, RSV = 0, MASK = 0 and no key (R160, 30_encoding.md R75): byte 0, EncLen, the payload. -/
def emittedFrame (opcode : BitVec 4) (s : Bytes) : Bytes :=
  (Header.emitted opcode 0).byte0 :: (encLen s.length ++ s)

/-- The wire value of a status (10_state.md R31). -/
def statusWire : Status → Nat
  | .normal => 1000
  | .protocolError => 1002
  | .invalidDataFormat => 1007

/-- The close response of a status: byte 0, length 2, the code big-endian (R165). -/
def closeResponse (status : Status) : Bytes :=
  (Header.emitted 0x8 0).byte0 :: 0x02 :: beBytes 2 (statusWire status)

/-- The pong frame that answers a ping: byte 0, the length as a single raw byte, the payload (R166). -/
def pongReply (s : Bytes) : Bytes := (Header.emitted 0xA 0).byte0 :: BitVec.ofNat 8 s.length :: s

/-- EMIT.TEXT (R163). -/
def execEmitText (bs : Bytes) (s : State) : Result := emit (some (emittedFrame 0x1 bs)) s

/-- EMIT.BIN (R164). -/
def execEmitBin (bs : Bytes) (s : State) : Result := emit (some (emittedFrame 0x2 bs)) s

/-- EMIT.REASM.TEXT (R162): one unfragmented frame, never a continuation. -/
def execEmitReasmText (bs : Bytes) (s : State) : Result := emit (some (emittedFrame 0x1 bs)) s

/-- EMIT.REASM.BIN (R162). -/
def execEmitReasmBin (bs : Bytes) (s : State) : Result := emit (some (emittedFrame 0x2 bs)) s

/-- EMIT.CLOSE (R165). -/
def execEmitClose (status : Status) (s : State) : Result := emit (some (closeResponse status)) s

/-- EMIT.PONG (R166): defined for at most 125 bytes, a longer ping is refused (U7; log 13). -/
def execEmitPong (bs : Bytes) (s : State) : Result :=
  if bs.length ≤ 125 then emit (some (pongReply bs)) s else .refused .pingTooLong

/-- The frame a unit calls for, or none for `Continuation(None)` and `Pong` (R160, R162 to R167). -/
def emitInstr : LogicalUnit → Option Instr
  | .continuation none => none
  | .continuation (some (.text m)) => some (.emitReasmText m)
  | .continuation (some (.binary m)) => some (.emitReasmBin m)
  | .text s => some (.emitText s)
  | .binary s => some (.emitBin s)
  | .close status => some (.emitClose status)
  | .ping s => some (.emitPong s)
  | .pong _ => none

/-- ENCODE of a unit (R160), `run` being the meaning of the frame it calls for. -/
def beginEncode (run : Instr → State → Result) (u : LogicalUnit) (s : State) : Result :=
  match emitInstr u with
  | some i => run i s
  | none => emit none s

end Sys2Proof.Machine
end

