-- ==== Sys2Proof/Machine/HeaderViolations.lean ====
section
/-! DEFINITION. The meanings of the HV rows: step HCHK's result (40_frontend.md R92), nothing after byte 1 read. -/

namespace Sys2Proof.Machine

/-- HCHK's violation: Close(ProtocolError), CUR staying at CUR0 + 2, FT untouched (R92). -/
def headerViolation (s : State) : Result := deliver (.close .protocolError) s

/-- HV.RSV1. -/
def execHvRsv1 (s : State) : Result := headerViolation s

/-- HV.RSV2. -/
def execHvRsv2 (s : State) : Result := headerViolation s

/-- HV.RSV3. -/
def execHvRsv3 (s : State) : Result := headerViolation s

/-- HV.NOMASK. -/
def execHvNomask (s : State) : Result := headerViolation s

end Sys2Proof.Machine
end

