-- ==== Sys2Proof/Machine/IllegalFrames.lean ====
section
/-! DEFINITION. The meanings of the 23 illegal frame kinds (30_encoding.md R71; 42_control_frames.md R134 to R136): the
frame is read in full, then Close(ProtocolError); FT is not touched (R137). -/

namespace Sys2Proof.Machine

/-- The result of an illegal kind, once its whole frame has been read (R134 to R136). -/
def illegalFrame (len7 : BitVec 7) (s : State) : Result :=
  readFrame len7 s fun s => deliver (.close .protocolError) s

/-- RSVD3.N (R135). -/
def execRsvd3N (len7 : BitVec 7) (s : State) : Result := illegalFrame len7 s

/-- RSVD4.N (R135). -/
def execRsvd4N (len7 : BitVec 7) (s : State) : Result := illegalFrame len7 s

/-- RSVD5.N (R135). -/
def execRsvd5N (len7 : BitVec 7) (s : State) : Result := illegalFrame len7 s

/-- RSVD6.N (R135). -/
def execRsvd6N (len7 : BitVec 7) (s : State) : Result := illegalFrame len7 s

/-- RSVD7.N (R135). -/
def execRsvd7N (len7 : BitVec 7) (s : State) : Result := illegalFrame len7 s

/-- CLOSE.N (R134). -/
def execCloseN (len7 : BitVec 7) (s : State) : Result := illegalFrame len7 s

/-- PING.N (R134). -/
def execPingN (len7 : BitVec 7) (s : State) : Result := illegalFrame len7 s

/-- PONG.N (R134). -/
def execPongN (len7 : BitVec 7) (s : State) : Result := illegalFrame len7 s

/-- RSVDB.N (R135). -/
def execRsvdBN (len7 : BitVec 7) (s : State) : Result := illegalFrame len7 s

/-- RSVDC.N (R135). -/
def execRsvdCN (len7 : BitVec 7) (s : State) : Result := illegalFrame len7 s

/-- RSVDD.N (R135). -/
def execRsvdDN (len7 : BitVec 7) (s : State) : Result := illegalFrame len7 s

/-- RSVDE.N (R135). -/
def execRsvdEN (len7 : BitVec 7) (s : State) : Result := illegalFrame len7 s

/-- RSVDF.N (R135). -/
def execRsvdFN (len7 : BitVec 7) (s : State) : Result := illegalFrame len7 s

/-- RSVD3.F (R136). -/
def execRsvd3F (len7 : BitVec 7) (s : State) : Result := illegalFrame len7 s

/-- RSVD4.F (R136). -/
def execRsvd4F (len7 : BitVec 7) (s : State) : Result := illegalFrame len7 s

/-- RSVD5.F (R136). -/
def execRsvd5F (len7 : BitVec 7) (s : State) : Result := illegalFrame len7 s

/-- RSVD6.F (R136). -/
def execRsvd6F (len7 : BitVec 7) (s : State) : Result := illegalFrame len7 s

/-- RSVD7.F (R136). -/
def execRsvd7F (len7 : BitVec 7) (s : State) : Result := illegalFrame len7 s

/-- RSVDB.F (R136). -/
def execRsvdBF (len7 : BitVec 7) (s : State) : Result := illegalFrame len7 s

/-- RSVDC.F (R136). -/
def execRsvdCF (len7 : BitVec 7) (s : State) : Result := illegalFrame len7 s

/-- RSVDD.F (R136). -/
def execRsvdDF (len7 : BitVec 7) (s : State) : Result := illegalFrame len7 s

/-- RSVDE.F (R136). -/
def execRsvdEF (len7 : BitVec 7) (s : State) : Result := illegalFrame len7 s

/-- RSVDF.F (R136). -/
def execRsvdFF (len7 : BitVec 7) (s : State) : Result := illegalFrame len7 s

end Sys2Proof.Machine
end

