-- ==== Sys2Proof/Machine/Dispatch.lean ====
section
/-! DEFINITION. One arm per constructor of Instr: its meaning. A received frame's meaning runs from the byte after its
header (40_frontend.md R92 to R98); an emitted frame's is its ENCODE (43_encoder.md). -/

namespace Sys2Proof.Machine

def exec (i : Instr) (s : State) : Host.Outcome State Fault Refusal :=
  match i with
  | .hvRsv1 _ _ _ _ _ => Sys2Proof.Machine.execHvRsv1 s
  | .hvRsv2 _ _ _ _ _ => Sys2Proof.Machine.execHvRsv2 s
  | .hvRsv3 _ _ _ _ => Sys2Proof.Machine.execHvRsv3 s
  | .hvNomask _ _ _ => Sys2Proof.Machine.execHvNomask s
  | .contN len7 => Sys2Proof.Machine.execContN len7 s
  | .textN len7 => Sys2Proof.Machine.execTextN len7 s
  | .binN len7 => Sys2Proof.Machine.execBinN len7 s
  | .rsvd3N len7 => Sys2Proof.Machine.execRsvd3N len7 s
  | .rsvd4N len7 => Sys2Proof.Machine.execRsvd4N len7 s
  | .rsvd5N len7 => Sys2Proof.Machine.execRsvd5N len7 s
  | .rsvd6N len7 => Sys2Proof.Machine.execRsvd6N len7 s
  | .rsvd7N len7 => Sys2Proof.Machine.execRsvd7N len7 s
  | .closeN len7 => Sys2Proof.Machine.execCloseN len7 s
  | .pingN len7 => Sys2Proof.Machine.execPingN len7 s
  | .pongN len7 => Sys2Proof.Machine.execPongN len7 s
  | .rsvdBN len7 => Sys2Proof.Machine.execRsvdBN len7 s
  | .rsvdCN len7 => Sys2Proof.Machine.execRsvdCN len7 s
  | .rsvdDN len7 => Sys2Proof.Machine.execRsvdDN len7 s
  | .rsvdEN len7 => Sys2Proof.Machine.execRsvdEN len7 s
  | .rsvdFN len7 => Sys2Proof.Machine.execRsvdFN len7 s
  | .contF len7 => Sys2Proof.Machine.execContF len7 s
  | .textF len7 => Sys2Proof.Machine.execTextF len7 s
  | .binF len7 => Sys2Proof.Machine.execBinF len7 s
  | .rsvd3F len7 => Sys2Proof.Machine.execRsvd3F len7 s
  | .rsvd4F len7 => Sys2Proof.Machine.execRsvd4F len7 s
  | .rsvd5F len7 => Sys2Proof.Machine.execRsvd5F len7 s
  | .rsvd6F len7 => Sys2Proof.Machine.execRsvd6F len7 s
  | .rsvd7F len7 => Sys2Proof.Machine.execRsvd7F len7 s
  | .closeF len7 => Sys2Proof.Machine.execCloseF len7 s
  | .pingF len7 => Sys2Proof.Machine.execPingF len7 s
  | .pongF len7 => Sys2Proof.Machine.execPongF len7 s
  | .rsvdBF len7 => Sys2Proof.Machine.execRsvdBF len7 s
  | .rsvdCF len7 => Sys2Proof.Machine.execRsvdCF len7 s
  | .rsvdDF len7 => Sys2Proof.Machine.execRsvdDF len7 s
  | .rsvdEF len7 => Sys2Proof.Machine.execRsvdEF len7 s
  | .rsvdFF len7 => Sys2Proof.Machine.execRsvdFF len7 s
  | .emitText bs => Sys2Proof.Machine.execEmitText bs s
  | .emitBin bs => Sys2Proof.Machine.execEmitBin bs s
  | .emitReasmText bs => Sys2Proof.Machine.execEmitReasmText bs s
  | .emitReasmBin bs => Sys2Proof.Machine.execEmitReasmBin bs s
  | .emitClose status => Sys2Proof.Machine.execEmitClose status s
  | .emitPong bs => Sys2Proof.Machine.execEmitPong bs s

end Sys2Proof.Machine
end

