-- ==== Sys2Proof/Machine/Requests.lean ====
section
/-! DEFINITION. Serving the host's requests, one a step (log 1), and the buffer that carries an opcode-table number. -/

namespace Sys2Proof.Machine

/-- The last transaction was a PARSE that returned a unit, so CUR is the cursor it returned (40_frontend.md R97). -/
def State.returnedCursor (s : State) : Bool :=
  match s.outcome with
  | some (.ok _) => true
  | some (.ioFailure _) | none => false

/-- One request. -/
def serveOne (run : Instr → State → Result) (r : Request) (s : State) : Result :=
  match r with
  | .parse buf cur0 => beginParse run buf cur0 s
  | .parseNext => if s.returnedCursor then beginParse run s.buf s.cur s else .refused .noReturnedCursor
  | .retry buf => retryParse run buf s
  | .encode u => beginEncode run u s
  | .reset => .next s.restart

/-- The oldest request is served; with none pending the machine does nothing (70_reset_and_hazards.md R211). -/
def serve (run : Instr → State → Result) (s : State) : Result :=
  match s.pending with
  | [] => .next s
  | r :: rest => serveOne run r (s.setPending rest)

/-- A buffer that starts with the bytes of an opcode-table number and goes on with bytes of 00, long enough for the
longest class-M frame (log 19). -/
def fetchBuffer (nbits w : Nat) : Memory := { Memory.ofBytes (tableBytes nbits w) with size := 14 + 2 ^ 16 }

end Sys2Proof.Machine
end

