-- ==== Sys2Proof/Machine/Step.lean ====
section
/-! DEFINITION. One step: one whole transaction, or one host event (40_frontend.md R99). -/

namespace Sys2Proof.Machine

/-- One step of the machine. -/
def step (s : State) : Host.Outcome State Fault Refusal := serve exec s

/-- `s` with a PARSE request next, on a buffer that holds the instruction's bits at offset 0 (log 19). -/
def State.withFetchWord (s : State) (nbits w : Nat) : State :=
  s.setPending (.parse (fetchBuffer nbits w) 0 :: s.pending)

end Sys2Proof.Machine
end

