-- ==== Sys2Proof/Safety.lean ====
section
/-! DEFINITION. The terms the claims use: the instructions by kind, the frame at the cursor as 30_encoding.md R60 lays
it out, what a safe state is, and which states no transaction can tell apart (10_state.md R27). -/

namespace Sys2Proof.Machine

/-- CLOSE.N, PING.N, PONG.N (42_control_frames.md R134). -/
def fragmentedControlKinds (len7 : BitVec 7) : List Instr :=
  [.closeN len7, .pingN len7, .pongN len7]

/-- The undefined opcodes with FIN = 0 (R135). -/
def reservedNonFinalKinds (len7 : BitVec 7) : List Instr :=
  [.rsvd3N len7, .rsvd4N len7, .rsvd5N len7, .rsvd6N len7, .rsvd7N len7, .rsvdBN len7,
   .rsvdCN len7, .rsvdDN len7, .rsvdEN len7, .rsvdFN len7]

/-- The undefined opcodes with FIN = 1 (R136). -/
def reservedFinalKinds (len7 : BitVec 7) : List Instr :=
  [.rsvd3F len7, .rsvd4F len7, .rsvd5F len7, .rsvd6F len7, .rsvd7F len7, .rsvdBF len7,
   .rsvdCF len7, .rsvdDF len7, .rsvdEF len7, .rsvdFF len7]

/-- The 23 illegal kinds (30_encoding.md R71). -/
def illegalKinds (len7 : BitVec 7) : List Instr :=
  fragmentedControlKinds len7 ++ reservedNonFinalKinds len7 ++ reservedFinalKinds len7

/-- The control kinds (42_control_frames.md R130 to R133). -/
def controlKinds (len7 : BitVec 7) : List Instr := [.closeF len7, .pingF len7, .pongF len7]

/-- The data kinds (41_data_frames.md). -/
def dataKinds (len7 : BitVec 7) : List Instr :=
  [.contN len7, .textN len7, .binN len7, .contF len7, .textF len7, .binF len7]

/-- The 32 frame kinds (30_encoding.md R70). -/
def frameKinds (len7 : BitVec 7) : List Instr := dataKinds len7 ++ controlKinds len7 ++ illegalKinds len7

/-- The frames ENCODE emits: PARSE's decoder never answers one (30_encoding.md R77). -/
def isEmit : Instr → Bool
  | .emitText _ | .emitBin _ | .emitReasmText _ | .emitReasmBin _ | .emitClose _ | .emitPong _ => true
  | .hvRsv1 .. | .hvRsv2 .. | .hvRsv3 .. | .hvNomask .. => false
  | .contN _ | .textN _ | .binN _ | .rsvd3N _ | .rsvd4N _ | .rsvd5N _ | .rsvd6N _ | .rsvd7N _ => false
  | .closeN _ | .pingN _ | .pongN _ | .rsvdBN _ | .rsvdCN _ | .rsvdDN _ | .rsvdEN _ | .rsvdFN _ => false
  | .contF _ | .textF _ | .binF _ | .rsvd3F _ | .rsvd4F _ | .rsvd5F _ | .rsvd6F _ | .rsvd7F _ => false
  | .closeF _ | .pingF _ | .pongF _ | .rsvdBF _ | .rsvdCF _ | .rsvdDF _ | .rsvdEF _ | .rsvdFF _ => false

/-- EXT, the bytes of the extended length field after the header (30_encoding.md R66). -/
def extSize (len7 : BitVec 7) : Nat := (LenClass.ofLen7 len7).extBytes

/-- The payload length of the frame whose header ends at CUR (R63). -/
def frameLen (len7 : BitVec 7) (s : State) : Nat := decLen len7 (s.buf.slice s.cur (extSize len7))

/-- Where its key starts (R65). -/
def keyOffset (len7 : BitVec 7) (s : State) : Nat := s.cur + extSize len7

/-- Its key (R65). -/
def frameKey (len7 : BitVec 7) (s : State) : Key :=
  { k0 := s.buf.get (keyOffset len7 s), k1 := s.buf.get (keyOffset len7 s + 1),
    k2 := s.buf.get (keyOffset len7 s + 2), k3 := s.buf.get (keyOffset len7 s + 3) }

/-- Its unmasked payload: PAY[i] = BUF[p + i] xor KEY[i mod 4], p the offset of its first byte (10_state.md R25). -/
def framePay (len7 : BitVec 7) (s : State) : Bytes :=
  (List.range (frameLen len7 s)).map fun i =>
    s.buf.get (keyOffset len7 s + 4 + i) ^^^ (frameKey len7 s).byte i

/-- The offset after its last byte: CUR0 + FRAMELEN (R66). -/
def frameEnd (len7 : BitVec 7) (s : State) : Nat := keyOffset len7 s + 4 + frameLen len7 s

/-- All of the frame is in the buffer. -/
def frameComplete (len7 : BitVec 7) (s : State) : Bool := frameEnd len7 s ≤ s.buf.size

/-- The extended length is cut short (60_exceptions.md R181). -/
def extCut (len7 : BitVec 7) (s : State) : Bool := extSize len7 != 0 && s.buf.size < keyOffset len7 s

/-- The key is cut short (R181). -/
def keyCut (len7 : BitVec 7) (s : State) : Bool := !extCut len7 s && s.buf.size < keyOffset len7 s + 4

/-- The payload is cut short (R181). -/
def payCut (len7 : BitVec 7) (s : State) : Bool :=
  keyOffset len7 s + 4 ≤ s.buf.size && s.buf.size < frameEnd len7 s

/-- The state a frame leaves when it returns unit `u` with the tracker `ft`: PAYLEN, KEY and PAY are the frame's, CUR
stands after it, and nothing else has changed. -/
def afterFrame (len7 : BitVec 7) (s : State) (u : LogicalUnit) (ft : Tracker) : State :=
  { s with paylen := BitVec.ofNat 64 (frameLen len7 s), key := frameKey len7 s, pay := framePay len7 s,
           cur := frameEnd len7 s, ft := ft, outcome := some (.ok u) }

/-- A request's buffer is in canonical form. -/
def Request.wf : Request → Bool
  | .parse buf _ => buf.wf
  | .retry buf => buf.wf
  | .parseNext | .encode _ | .reset => true

/-- What every step keeps. -/
structure MachineInv (s : State) : Prop where
  /-- BUF is in canonical form. -/
  buf      : s.buf.wf = true
  /-- BUFLEN is below 2^64 (00_scope.md R6). -/
  buflen   : s.buf.size < 2 ^ 64
  /-- The cursor never rewinds (10_state.md R21). -/
  forward  : s.cur0 ≤ s.cur
  /-- The cursor stays within BUF (R21). -/
  inBuffer : s.cur ≤ s.buf.size
  /-- Text is valid UTF-8 and a ping has at most 125 bytes (R30). -/
  outcome  : ∀ r, s.outcome = some r → r.wf = true
  /-- The host's buffers are in canonical form. -/
  pending  : ∀ r ∈ s.pending, Request.wf r = true

/-- Two trackers that no rule can tell apart: the same emptiness, the same concatenation, and, when not Empty, the same
shape (10_state.md R26, R27). -/
def Tracker.sameView (a b : Tracker) : Prop :=
  a.isEmpty = b.isEmpty ∧ a.concat = b.concat ∧ (a.isEmpty = false → a.shape = b.shape)

/-- Two states that differ at most in what no rule can tell apart of the tracker. -/
def State.sameView (a b : State) : Prop := a.setFt b.ft = b ∧ a.ft.sameView b.ft

/-- Two results that agree: the same stop, or next states in a relation. -/
def Result.agree (rel : State → State → Prop) : Result → Result → Prop
  | .next a, .next b => rel a b
  | .fault a, .fault b => a = b
  | .refused a, .refused b => a = b
  | _, _ => False

/-- A result with its next state changed. -/
def Result.mapState (f : State → State) : Result → Result
  | .next s => .next (f s)
  | .fault r => .fault r
  | .refused r => .refused r

/-- What the host sees of a PARSE (60_exceptions.md R186): the outcome, FT, and CUR unless it is unspecified. -/
def State.sameParse (a b : State) : Prop :=
  a.outcome = b.outcome ∧ a.ft = b.ft ∧ (a.returnedCursor = true → a.cur = b.cur)

/-- The cells of R12's table: each row a list of ranges, one for each byte of the sequence. -/
def utf8Table : List (List (Nat × Nat)) :=
  [[(0x00, 0x7F)],
   [(0xC2, 0xDF), (0x80, 0xBF)],
   [(0xE0, 0xE0), (0xA0, 0xBF), (0x80, 0xBF)],
   [(0xE1, 0xEC), (0x80, 0xBF), (0x80, 0xBF)],
   [(0xED, 0xED), (0x80, 0x9F), (0x80, 0xBF)],
   [(0xEE, 0xEF), (0x80, 0xBF), (0x80, 0xBF)],
   [(0xF0, 0xF0), (0x90, 0xBF), (0x80, 0xBF), (0x80, 0xBF)],
   [(0xF1, 0xF3), (0x80, 0xBF), (0x80, 0xBF), (0x80, 0xBF)],
   [(0xF4, 0xF4), (0x80, 0x8F), (0x80, 0xBF), (0x80, 0xBF)]]

/-- A byte sequence fits a row: as many bytes as cells, each in its range. -/
def fitsRow : List (Nat × Nat) → Bytes → Bool
  | [], [] => true
  | (lo, hi) :: row, b :: p => lo ≤ b.toNat && b.toNat ≤ hi && fitsRow row p
  | [], _ :: _ | _ :: _, [] => false

/-- A byte sequence is one well-formed UTF-8 sequence: it fits a row of R12's table, byte for byte. -/
def utf8Sequence (p : Bytes) : Bool := utf8Table.any fun row => fitsRow row p

/-- What a masked ENCODE output decodes to on an Empty tracker (43_encoder.md R169). -/
def echoUnit : LogicalUnit → Option LogicalUnit
  | .continuation none => none
  | .continuation (some (.text m)) => some (.text m)
  | .continuation (some (.binary m)) => some (.binary m)
  | .text s => some (.text s)
  | .binary s => some (.binary s)
  | .close _ => some (.close .normal)
  | .ping s => some (.pong s)
  | .pong _ => none

/-- "Simulating a client echo" (R169): set bit 7 of byte 1, insert the key after the length bytes, mask the payload. -/
def echoFrame (key : Key) : Bytes → Bytes
  | b0 :: b1 :: rest =>
    let ext := extSize (b1.extractLsb' 0 7)
    b0 :: (b1 ||| 0x80#8) :: (rest.take ext ++ key.toBytes ++ mask key (rest.drop ext))
  | s => s

end Sys2Proof.Machine
end

