-- ==== Sys2Proof/Certificates/Slice0/Obligations.lean ====
section
/-! DEFINITION. The statements for the provers. "Complete" means that every byte of the frame whose header ends at CUR
is in BUF (Safety.lean, frameComplete); `afterFrame` is the whole next state: PAYLEN, KEY, PAY, CUR, FT and the outcome
as given, every other field (the header registers, BUF, CUR0, and the model's own) as before. -/

open Sys2Proof Sys2Proof.Machine

/-! ## Reset, the host's requests, the step -/

/-- 10_state.md R35: after reset the tracker holds no chunk and there is no outcome. -/
def Obligations.ResetIsEmptyWithNoOutcome : Prop :=
  State.reset.ft.chunks = [] ∧ State.reset.outcome = none

/-- The invariant holds after reset. The named values of the other fields are the model's (log 2 to 5). -/
def Obligations.ResetMeetsTheInvariant : Prop := MachineInv State.reset

/-- 70_reset_and_hazards.md R210, as the host's request: FT becomes Empty and the outcome is gone, whatever they were;
that a reset may come at any time is the spec's decision D15. The parameters, the later requests and the draws stay,
which is the model's choice (log 20). -/
def Obligations.ResetRequestEmptiesTheTracker : Prop :=
  ∀ (s : State) (rest : List Request), s.pending = .reset :: rest →
    ∃ t, step s = .next t ∧ t.ft.chunks = [] ∧ t.outcome = none ∧
      t.params = s.params ∧ t.pending = rest ∧ t.draws = s.draws

/-- 70_reset_and_hazards.md R211: with no request pending the machine does nothing (that a step is then a stutter is the
model's choice, log 1). -/
def Obligations.IdleMachineStaysAsItIs : Prop := ∀ s : State, s.pending = [] → step s = .next s

/-- A step runs the decoded instruction: a PARSE request whose two header bytes decode to `i` is `exec i`, from the
state in which BUF, CUR0 and the header fields are latched and CUR stands after the header (40_frontend.md R90, R91,
R98; the request is the model's, log 1). -/
def Obligations.ParseStepRunsTheDecodedInstruction : Prop :=
  ∀ (s : State) (buf : Memory) (cur0 : Nat) (rest : List Request) (i : Instr),
    s.pending = .parse buf cur0 :: rest → buf.size < 2 ^ 64 → cur0 + 2 ≤ buf.size →
    decode (buf.slice cur0 2) = .ok (i, []) →
    step s = exec i { s with
      pending := rest, buf := buf, cur0 := cur0, cur := cur0 + 2,
      fin := (buf.get cur0).getLsbD 7, rsv := (buf.get cur0).extractLsb' 4 3,
      opcode := (buf.get cur0).extractLsb' 0 4, masked := (buf.get (cur0 + 1)).getLsbD 7,
      len7 := (buf.get (cur0 + 1)).extractLsb' 0 7 }

/-- An ENCODE request runs the frame its unit calls for (43_encoder.md R160; the request is the model's, log 1). -/
def Obligations.EncodeStepRunsTheFrameOfTheUnit : Prop :=
  ∀ (s : State) (u : LogicalUnit) (rest : List Request) (i : Instr),
    s.pending = .encode u :: rest → emitInstr u = some i → step s = exec i { s with pending := rest }

/-- 40_frontend.md R97 and 60_exceptions.md R188 as requests (the model's, log 1): the next frame of a buffer is a PARSE
at the returned CUR, a retry is a PARSE of the new buffer at the same CUR0. -/
def Obligations.NextAndRetryAreParses : Prop :=
  (∀ (s : State) (u : LogicalUnit) (rest : List Request), s.pending = .parseNext :: rest → s.outcome = some (.ok u) →
    step s = step { s with pending := .parse s.buf s.cur :: rest }) ∧
  (∀ (s : State) (buf : Memory) (rest : List Request), s.pending = .retry buf :: rest →
    step s = step { s with pending := .parse buf s.cur0 :: rest })

/-- Requests outside PARSE's domain are refused by name: a start cursor beyond the buffer (U12), a BUFLEN of 2^64 or
more (R6), going on where the last PARSE returned no cursor (R217). That they are refusals is the spec's advice (U12)
and the model's choice (log 9). -/
def Obligations.RequestsOutsideTheDomainAreRefused : Prop :=
  (∀ (s : State) (buf : Memory) (cur0 : Nat) (rest : List Request), s.pending = .parse buf cur0 :: rest →
    2 ^ 64 ≤ buf.size → step s = .refused .bufferTooLong) ∧
  (∀ (s : State) (buf : Memory) (cur0 : Nat) (rest : List Request), s.pending = .parse buf cur0 :: rest →
    buf.size < 2 ^ 64 → buf.size < cur0 → step s = .refused .cursorBeyondBuffer) ∧
  (∀ (s : State) (rest : List Request), s.pending = .parseNext :: rest → (∀ u, s.outcome ≠ some (.ok u)) →
    step s = .refused .noReturnedCursor)

/-! ## The header and its encoding -/

/-- Header bytes of 95_test_vectors.md section 2.1, written out from 30_encoding.md R61, R62, decode to the kinds the
table there gives. -/
def Obligations.HeaderBytesOfTheSpecDecode : Prop :=
  decode [0b10000001, 0b10000101] = .ok (.textF 5, []) ∧
  decode [0b00000001, 0b10000011] = .ok (.textN 3, []) ∧
  decode [0b00000000, 0b10000100] = .ok (.contN 4, []) ∧
  decode [0b10000010, 0b11111110] = .ok (.binF 126, []) ∧
  decode [0b10001000, 0b10000000] = .ok (.closeF 0, []) ∧
  decode [0b00001001, 0b10000000] = .ok (.pingN 0, []) ∧
  decode [0b10001111, 0b10000000] = .ok (.rsvdFF 0, []) ∧
  decode [0b11000001, 0b10000101] = .ok (.hvRsv1 true 0 1 true 5, []) ∧
  decode [0b10000001, 0b00000101] = .ok (.hvNomask true 1 5, [])

/-- Decode and encode agree, every operand at every value: the header of every received frame and every violation is
read back, and the header of every decoded instruction is the bytes it came from. -/
def Obligations.DecodeAndEncodeAgree : Prop :=
  (∀ (i : Instr) (rest : Bytes), isEmit i = false → decode (encode i ++ rest) = .ok (i, rest)) ∧
  (∀ (b0 b1 : Byte) (rest : Bytes) (i : Instr), decode (b0 :: b1 :: rest) = .ok (i, rest) → encode i = [b0, b1])

/-- 30_encoding.md R77, as the spec derives it: the header word H of any two bytes is in the row of the instruction
decoded from it, that row is no EMIT row, and no second frame-kind row and no HV row beside a frame-kind row matches H.
A word with several violations is in several HV rows ("one or more HV rows"; the decoder names the first, log 8). -/
def Obligations.HeaderWordSelectsItsRow : Prop :=
  ∀ (b0 b1 : Byte) (i j : Instr),
    let H := b0.toNat * 256 + b1.toNat
    decode [b0, b1] = .ok (i, []) →
    isEmit i = false ∧ H &&& (tableRow i).1 = (tableRow i).2 ∧
    (isEmit j = false → H &&& (tableRow j).1 = (tableRow j).2 →
      (tableRow i).1 = 0xFF80 ∨ (tableRow j).1 = 0xFF80 → tableRow j = tableRow i)

/-- 30_encoding.md R75, R77: PARSE's decoder answers no EMIT instruction; an EMIT header word is an HV.NOMASK header. -/
def Obligations.EmittedHeadersAreUnmasked : Prop :=
  ∀ i : Instr, isEmit i = true → ∃ opcode len7, decode (encode i) = .ok (.hvNomask true opcode len7, [])

/-- 40_frontend.md R91: with fewer than two bytes left HDR raises IOFailure(HEADER); otherwise the five registers are
written from the two bytes, by R61's and R62's arithmetic. -/
def Obligations.HeaderStepReadsTwoBytes : Prop :=
  ∀ (s : State) (buf : Memory) (cur0 : Nat) (rest : List Request), s.pending = .parse buf cur0 :: rest →
    buf.size < 2 ^ 64 → cur0 ≤ buf.size →
    (buf.size < cur0 + 2 → ∃ t, step s = .next t ∧ t.outcome = some (.ioFailure .header)) ∧
    (cur0 + 2 ≤ buf.size → ∀ t, step s = .next t →
      t.fin = decide ((buf.get cur0).toNat / 128 = 1) ∧
      t.rsv.toNat = (buf.get cur0).toNat / 16 % 8 ∧
      t.opcode.toNat = (buf.get cur0).toNat % 16 ∧
      t.masked = decide ((buf.get (cur0 + 1)).toNat / 128 = 1) ∧
      t.len7.toNat = (buf.get (cur0 + 1)).toNat % 128)

/-- 40_frontend.md R92: a header with an RSV bit set or MASK clear is Close(ProtocolError) with CUR = CUR0 + 2 and FT
untouched, whatever FIN, OPCODE and LEN7 are and whatever follows byte 1, a 2-byte buffer included. That the check
stands there is the spec's decision D5 (log 17). -/
def Obligations.HeaderViolationClosesAfterTwoBytes : Prop :=
  ∀ (s : State) (buf : Memory) (cur0 : Nat) (rest : List Request), s.pending = .parse buf cur0 :: rest →
    buf.size < 2 ^ 64 → cur0 + 2 ≤ buf.size →
    ((buf.get cur0).toNat / 16 % 8 ≠ 0 ∨ (buf.get (cur0 + 1)).toNat / 128 = 0) →
    step s = .next { s with
      pending := rest, buf := buf, cur0 := cur0, cur := cur0 + 2,
      fin := (buf.get cur0).getLsbD 7, rsv := (buf.get cur0).extractLsb' 4 3,
      opcode := (buf.get cur0).extractLsb' 0 4, masked := (buf.get (cur0 + 1)).getLsbD 7,
      len7 := (buf.get (cur0 + 1)).extractLsb' 0 7,
      outcome := some (.ok (.close .protocolError)) }

/-- The four HV instructions complete in every state, with Close(ProtocolError) and nothing else changed (30_encoding.md
R72, R73; that nothing more is read is the spec's decision D5, log 17). -/
def Obligations.HeaderViolationRowsComplete : Prop :=
  ∀ (s : State) (fin rsv3 masked : Bool) (rsv23 : BitVec 2) (opcode : BitVec 4) (len7 : BitVec 7),
    let t : State := { s with outcome := some (.ok (.close .protocolError)) }
    exec (.hvRsv1 fin rsv23 opcode masked len7) s = .next t ∧
    exec (.hvRsv2 fin rsv3 opcode masked len7) s = .next t ∧
    exec (.hvRsv3 fin opcode masked len7) s = .next t ∧
    exec (.hvNomask fin opcode len7) s = .next t

/-! ## Length, key, payload, cursor -/

/-- 30_encoding.md R63: PAYLEN by length class, whatever the opcode, the extended field big-endian. -/
def Obligations.PayloadLengthByClass : Prop :=
  ∀ (len7 : BitVec 7) (s : State) (i : Instr), i ∈ frameKinds len7 →
    ∀ t, exec i s = .next t → frameComplete len7 s = true →
    (len7.toNat ≤ 125 → t.paylen.toNat = len7.toNat) ∧
    (len7.toNat = 126 → t.paylen.toNat = (s.buf.get s.cur).toNat * 256 + (s.buf.get (s.cur + 1)).toNat) ∧
    (len7.toNat = 127 → t.paylen.toNat =
      (s.buf.get s.cur).toNat * 2 ^ 56 + (s.buf.get (s.cur + 1)).toNat * 2 ^ 48 +
      (s.buf.get (s.cur + 2)).toNat * 2 ^ 40 + (s.buf.get (s.cur + 3)).toNat * 2 ^ 32 +
      (s.buf.get (s.cur + 4)).toNat * 2 ^ 24 + (s.buf.get (s.cur + 5)).toNat * 2 ^ 16 +
      (s.buf.get (s.cur + 6)).toNat * 2 ^ 8 + (s.buf.get (s.cur + 7)).toNat)

/-- 10_state.md R25, 30_encoding.md R65: KEY is the four bytes after the length field, PAY has exactly PAYLEN bytes, and
PAY[i] = BUF[p + i] xor KEY[i mod 4] with p the offset after the key. -/
def Obligations.PayloadIsUnmaskedWithTheKey : Prop :=
  ∀ (len7 : BitVec 7) (s : State) (i : Instr), i ∈ frameKinds len7 →
    ∀ t, exec i s = .next t → frameComplete len7 s = true →
    let q := s.cur + (if len7.toNat ≤ 125 then 0 else if len7.toNat = 126 then 2 else 8)
    t.key = { k0 := s.buf.get q, k1 := s.buf.get (q + 1), k2 := s.buf.get (q + 2), k3 := s.buf.get (q + 3) } ∧
    t.pay.length = t.paylen.toNat ∧
    ∀ j, j < t.paylen.toNat → t.pay[j]? = some (s.buf.get (q + 4 + j) ^^^ s.buf.get (q + j % 4))

/-- 60_exceptions.md R181: the four causes, each from its own missing field, whatever the opcode; the tracker is
unchanged and the cursor lies in CUR0 to BUFLEN. The causes' names are the spec's decision D6, the tracker D8, the
cursor D24 (log 5, 17). -/
def Obligations.TruncationRaisesTheCauseOfTheMissingField : Prop :=
  ∀ (s : State) (buf : Memory) (cur0 : Nat) (rest : List Request), s.pending = .parse buf cur0 :: rest →
    buf.size < 2 ^ 64 → cur0 ≤ buf.size →
    let fails (c : IOCause) : Prop :=
      ∃ t, step s = .next t ∧ t.outcome = some (.ioFailure c) ∧ t.ft = s.ft ∧ cur0 ≤ t.cur ∧ t.cur ≤ buf.size
    let h := Header.ofBytes (buf.get cur0) (buf.get (cur0 + 1))
    let ext := if h.len7.toNat ≤ 125 then 0 else if h.len7.toNat = 126 then 2 else 8
    (buf.size < cur0 + 2 → fails .header) ∧
    (cur0 + 2 ≤ buf.size → h.rsv = 0 → h.masked = true →
      (0 < ext → buf.size < cur0 + 2 + ext → fails .extlen) ∧
      (cur0 + 2 + ext ≤ buf.size → buf.size < cur0 + 2 + ext + 4 → fails .mask) ∧
      (cur0 + 2 + ext + 4 ≤ buf.size →
        buf.size < cur0 + 2 + ext + 4 + decLen h.len7 (buf.slice (cur0 + 2) ext) → fails .payload))

/-- 40_frontend.md R97: on Ok(U) from DISPATCH the cursor is CUR0 + 2 + EXT + 4 + PAYLEN, a sum the spec derives; on the
header violation CUR0 + 2, its decision D5 (log 17). -/
def Obligations.CursorStandsAfterTheFrame : Prop :=
  ∀ (s : State) (buf : Memory) (cur0 : Nat) (rest : List Request), s.pending = .parse buf cur0 :: rest →
    ∀ t u, step s = .next t → t.outcome = some (.ok u) →
    let ext := if t.len7.toNat ≤ 125 then 0 else if t.len7.toNat = 126 then 2 else 8
    t.cur = if t.rsv = 0 ∧ t.masked = true then cur0 + 2 + ext + 4 + t.paylen.toNat else cur0 + 2

/-- 30_encoding.md R60, R76: a frame as a client sends it, of any opcode and any length class that holds its payload,
standing anywhere in the buffer, is read back whole: the step is the meaning of its kind, on a complete frame with the
client's key and payload, ending where the frame ends. -/
def Obligations.ClientFrameIsReadBackWhole : Prop :=
  ∀ (s : State) (before after payload : Bytes) (fin : Bool) (opcode : BitVec 4) (c : LenClass) (key : Key)
    (rest : List Request),
    let frame := clientFrame fin opcode c key payload
    let buf := Memory.ofBytes (before ++ frame ++ after)
    let h := Header.received fin opcode (c.len7 payload.length)
    c.holds payload.length = true → buf.size < 2 ^ 64 → s.pending = .parse buf before.length :: rest →
    ∃ s1 : State, step s = exec (decodeHeader h) s1 ∧ s1.ft = s.ft ∧ s1.params = s.params ∧ s1.buf = buf ∧
      frameComplete h.len7 s1 = true ∧ frameLen h.len7 s1 = payload.length ∧ frameKey h.len7 s1 = key ∧
      framePay h.len7 s1 = payload ∧ frameEnd h.len7 s1 = before.length + frame.length

/-! ## Data frames (complete; where FT is written, within the capacity) -/

/-- 41_data_frames.md R111. -/
def Obligations.ContNAppendsToAMessageInProgress : Prop :=
  ∀ (len7 : BitVec 7) (s : State), frameComplete len7 s = true →
    (s.ft.chunks = [] → exec (.contN len7) s = .next (afterFrame len7 s (.close .protocolError) s.ft)) ∧
    (s.ft.chunks ≠ [] →
      let ft : Tracker := { shape := s.ft.shape, chunks := s.ft.chunks ++ [framePay len7 s] }
      admits s.params ft = true → exec (.contN len7) s = .next (afterFrame len7 s (.continuation none) ft))

/-- 41_data_frames.md R112: on a non-Empty tracker by the spec's decisions D10 and D21 (log 15). -/
def Obligations.TextNStartsOrAppends : Prop :=
  ∀ (len7 : BitVec 7) (s : State), frameComplete len7 s = true →
    let ft : Tracker :=
      if s.ft.chunks = [] then { shape := .text, chunks := [framePay len7 s] }
      else { shape := s.ft.shape, chunks := s.ft.chunks ++ [framePay len7 s] }
    admits s.params ft = true → exec (.textN len7) s = .next (afterFrame len7 s (.continuation none) ft)

/-- 41_data_frames.md R113. -/
def Obligations.BinNRestartsTheTracker : Prop :=
  ∀ (len7 : BitVec 7) (s : State), frameComplete len7 s = true →
    let ft : Tracker := { shape := .binary, chunks := [framePay len7 s] }
    admits s.params ft = true → exec (.binN len7) s = .next (afterFrame len7 s (.continuation none) ft)

/-- 41_data_frames.md R114: the check over the whole message is the spec's decision D11, the drain in the same
transaction its D7 (log 17). -/
def Obligations.ContFCompletesTheMessage : Prop :=
  ∀ (len7 : BitVec 7) (s : State), frameComplete len7 s = true →
    let m := s.ft.chunks.flatten ++ framePay len7 s
    let drained : Tracker := { shape := s.ft.shape, chunks := [] }
    (s.ft.chunks = [] → exec (.contF len7) s = .next (afterFrame len7 s (.close .protocolError) s.ft)) ∧
    (s.ft.chunks ≠ [] → s.ft.shape = .text → utf8Valid m = true →
      exec (.contF len7) s = .next (afterFrame len7 s (.continuation (some (.text m))) drained)) ∧
    (s.ft.chunks ≠ [] → s.ft.shape = .text → utf8Valid m = false →
      exec (.contF len7) s = .next (afterFrame len7 s (.close .invalidDataFormat) s.ft)) ∧
    (s.ft.chunks ≠ [] → s.ft.shape = .binary →
      exec (.contF len7) s = .next (afterFrame len7 s (.continuation (some (.binary m))) drained))

/-- 41_data_frames.md R115. -/
def Obligations.TextFDeliversValidText : Prop :=
  ∀ (len7 : BitVec 7) (s : State), frameComplete len7 s = true →
    exec (.textF len7) s = .next (afterFrame len7 s
      (if s.ft.chunks ≠ [] then .close .protocolError
       else if utf8Valid (framePay len7 s) = true then .text (framePay len7 s)
       else .close .invalidDataFormat) s.ft)

/-- 41_data_frames.md R116. -/
def Obligations.BinFDeliversBinary : Prop :=
  ∀ (len7 : BitVec 7) (s : State), frameComplete len7 s = true →
    exec (.binF len7) s = .next (afterFrame len7 s
      (if s.ft.chunks ≠ [] then .close .protocolError else .binary (framePay len7 s)) s.ft)

/-- 20_memory.md R49: a tracker write beyond a finite capacity is refused, for each frame kind that writes; with the
default parameters no step is. The refusal is the spec's decision D3; which counts are compared is the model's choice
(log 11). -/
def Obligations.CapacityOverflowIsRefused : Prop :=
  (∀ (len7 : BitVec 7) (s : State), frameComplete len7 s = true →
    (s.ft.chunks ≠ [] → admits s.params (s.ft.append (framePay len7 s)) = false →
      exec (.contN len7) s = .refused .ftCapacity ∧ exec (.textN len7) s = .refused .ftCapacity) ∧
    (s.ft.chunks = [] → admits s.params { shape := .text, chunks := [framePay len7 s] } = false →
      exec (.textN len7) s = .refused .ftCapacity) ∧
    (admits s.params { shape := .binary, chunks := [framePay len7 s] } = false →
      exec (.binN len7) s = .refused .ftCapacity)) ∧
  (∀ s : State, s.params = Params.default → step s ≠ .refused .ftCapacity)

/-! ## Control frames and illegal kinds (complete) -/

/-- 42_control_frames.md R130, with R131's verdict written out: the code is the first two payload bytes, big-endian. -/
def Obligations.CloseFVerdict : Prop :=
  ∀ (len7 : BitVec 7) (s : State), frameComplete len7 s = true →
    let p := framePay len7 s
    let code := (p.getD 0 0).toNat * 256 + (p.getD 1 0).toNat
    exec (.closeF len7) s = .next (afterFrame len7 s (.close
      (if frameLen len7 s = 0 then .normal
       else if 2 ≤ frameLen len7 s ∧ frameLen len7 s ≤ 125 then
         (if code ∈ [1000, 1001, 1002, 1003, 1007, 1008, 1009, 1010, 1011, 3000, 3999, 4000, 4999] ∧
             utf8Valid (p.drop 2) = true then .normal else .protocolError)
       else .protocolError)) s.ft)

/-- 42_control_frames.md R132. -/
def Obligations.PingFDeliversPing : Prop :=
  ∀ (len7 : BitVec 7) (s : State), frameComplete len7 s = true →
    exec (.pingF len7) s = .next (afterFrame len7 s
      (if frameLen len7 s ≤ 125 then .ping (framePay len7 s) else .close .protocolError) s.ft)

/-- 42_control_frames.md R133: any length. -/
def Obligations.PongFDeliversPong : Prop :=
  ∀ (len7 : BitVec 7) (s : State), frameComplete len7 s = true →
    exec (.pongF len7) s = .next (afterFrame len7 s (.pong (framePay len7 s)) s.ft)

/-- 42_control_frames.md R134. -/
def Obligations.FragmentedControlFramesClose : Prop :=
  ∀ (len7 : BitVec 7) (s : State), frameComplete len7 s = true →
    ∀ i ∈ [Instr.closeN len7, .pingN len7, .pongN len7],
      exec i s = .next (afterFrame len7 s (.close .protocolError) s.ft)

/-- 42_control_frames.md R135. -/
def Obligations.ReservedNonFinalFramesClose : Prop :=
  ∀ (len7 : BitVec 7) (s : State), frameComplete len7 s = true →
    ∀ i ∈ [Instr.rsvd3N len7, .rsvd4N len7, .rsvd5N len7, .rsvd6N len7, .rsvd7N len7,
           .rsvdBN len7, .rsvdCN len7, .rsvdDN len7, .rsvdEN len7, .rsvdFN len7],
      exec i s = .next (afterFrame len7 s (.close .protocolError) s.ft)

/-- 42_control_frames.md R136. -/
def Obligations.ReservedFinalFramesClose : Prop :=
  ∀ (len7 : BitVec 7) (s : State), frameComplete len7 s = true →
    ∀ i ∈ [Instr.rsvd3F len7, .rsvd4F len7, .rsvd5F len7, .rsvd6F len7, .rsvd7F len7,
           .rsvdBF len7, .rsvdCF len7, .rsvdDF len7, .rsvdEF len7, .rsvdFF len7],
      exec i s = .next (afterFrame len7 s (.close .protocolError) s.ft)

/-- 42_control_frames.md R137, as the spec derives it: the control and illegal kinds neither read nor write FT: run with
another tracker, they do the same and leave that tracker as it was. -/
def Obligations.ControlFramesIgnoreTheTracker : Prop :=
  ∀ (len7 : BitVec 7) (s : State) (ft : Tracker) (i : Instr), i ∈ controlKinds len7 ++ illegalKinds len7 →
    exec i { s with ft := ft } = Result.mapState (fun t => { t with ft := ft }) (exec i s) ∧
    ∀ t, exec i s = .next t → t.ft = s.ft

/-! ## The encoder. Its result stands in `emitted`, the model's own output field (log 7). -/

/-- 43_encoder.md R162. -/
def Obligations.EmitReassembledMessages : Prop :=
  ∀ (m : Bytes) (s : State),
    exec (.emitReasmText m) s = .next { s with emitted := some (some (0x81 :: (encLen m.length ++ m))) } ∧
    exec (.emitReasmBin m) s = .next { s with emitted := some (some (0x82 :: (encLen m.length ++ m))) }

/-- 43_encoder.md R163, R164. -/
def Obligations.EmitTextAndBinary : Prop :=
  ∀ (p : Bytes) (s : State),
    exec (.emitText p) s = .next { s with emitted := some (some (0x81 :: (encLen p.length ++ p))) } ∧
    exec (.emitBin p) s = .next { s with emitted := some (some (0x82 :: (encLen p.length ++ p))) }

/-- 43_encoder.md R165. -/
def Obligations.EmitCloseResponse : Prop :=
  ∀ s : State,
    exec (.emitClose .normal) s = .next { s with emitted := some (some [0x88, 0x02, 0x03, 0xE8]) } ∧
    exec (.emitClose .protocolError) s = .next { s with emitted := some (some [0x88, 0x02, 0x03, 0xEA]) } ∧
    exec (.emitClose .invalidDataFormat) s = .next { s with emitted := some (some [0x88, 0x02, 0x03, 0xEF]) }

/-- 43_encoder.md R166: a pong frame echoing the ping (the spec's decision D16); a longer ping has no meaning and is
refused (its decision D25, U7; log 13). -/
def Obligations.EmitPongReply : Prop :=
  ∀ (p : Bytes) (s : State),
    (p.length ≤ 125 →
      exec (.emitPong p) s = .next { s with emitted := some (some (0x8A :: BitVec.ofNat 8 p.length :: p)) }) ∧
    (125 < p.length → exec (.emitPong p) s = .refused .pingTooLong)

/-- 43_encoder.md R167. -/
def Obligations.EncodeGivesNoBytesForFragmentsAndPongs : Prop :=
  ∀ (s : State) (u : LogicalUnit) (rest : List Request), s.pending = .encode u :: rest →
    u = .continuation none ∨ (∃ p, u = .pong p) →
    step s = .next { s with pending := rest, emitted := some none }

/-- 43_encoder.md R160, with the frame layout and the byte-0 list of 30_encoding.md R75, whose 0x8A for a Ping unit is
the spec's decision D16 (log 17): ENCODE of a unit whose frame is well formed never fails; its result depends on the
unit alone and is all it writes; it is None exactly for Continuation(None) and Pong, and else one whole frame: byte 0
with FIN = 1 and RSV = 0, the length of some payload with MASK clear, that payload, no key. Which payload it is the
EMIT statements say of each unit (EmitReassembledMessages, EmitTextAndBinary, EmitCloseResponse, EmitPongReply). -/
def Obligations.EncodeNeverFails : Prop :=
  ∀ u : LogicalUnit, (∀ i, emitInstr u = some i → i.wellFormed = true) →
    ∃ r : Option Bytes,
      (∀ (s : State) (rest : List Request), s.pending = .encode u :: rest →
        step s = .next { s with pending := rest, emitted := some r }) ∧
      (r = none ↔ u = .continuation none ∨ ∃ p, u = .pong p) ∧
      ∀ bytes, r = some bytes → ∃ b0 ∈ [0x81#8, 0x82#8, 0x88#8, 0x8A#8], ∃ payload : Bytes,
        bytes = b0 :: (encLen payload.length ++ payload) ∧ (bytes.getD 1 0).getLsbD 7 = false

/-- 30_encoding.md R75, R77: the frame an EMIT instruction writes begins with its row's header word. -/
def Obligations.EmittedFrameBeginsWithItsHeaderWord : Prop :=
  ∀ (i : Instr) (s t : State) (bytes : Bytes), isEmit i = true → i.wellFormed = true → exec i s = .next t →
    t.emitted = some (some bytes) → bytes.take 2 = encode i

/-- 43_encoder.md R161. -/
def Obligations.EncLenByClass : Prop :=
  ∀ L : Nat,
    (L ≤ 125 → encLen L = [BitVec.ofNat 8 L]) ∧
    (125 < L → L ≤ 65535 → encLen L = [126, BitVec.ofNat 8 (L / 256), BitVec.ofNat 8 (L % 256)]) ∧
    (65535 < L → L < 2 ^ 64 → encLen L = [127,
      BitVec.ofNat 8 (L / 256 ^ 7 % 256), BitVec.ofNat 8 (L / 256 ^ 6 % 256), BitVec.ofNat 8 (L / 256 ^ 5 % 256),
      BitVec.ofNat 8 (L / 256 ^ 4 % 256), BitVec.ofNat 8 (L / 256 ^ 3 % 256), BitVec.ofNat 8 (L / 256 ^ 2 % 256),
      BitVec.ofNat 8 (L / 256 % 256), BitVec.ofNat 8 (L % 256)])

/-- 40_frontend.md R101: DecLen(EncLen(L)) = L for every u64, the first byte of EncLen being byte 1 with MASK clear; the
converse fails on a non-minimal encoding, the spec's own remark. -/
def Obligations.DecLenInvertsEncLen : Prop :=
  (∀ L : Nat, L < 2 ^ 64 → ∃ (b1 : Byte) (ext : Bytes), encLen L = b1 :: ext ∧ b1.getLsbD 7 = false ∧
    ext.length = extSize (b1.extractLsb' 0 7) ∧ decLen (b1.extractLsb' 0 7) ext = L) ∧
  (∃ (len7 : BitVec 7) (ext : Bytes), ext.length = extSize len7 ∧
    encLen (decLen len7 ext) ≠ (0#1 ++ len7 : BitVec 8) :: ext)

/-- 40_frontend.md R100: the Mask Codec byte by byte, and that it undoes itself, for every length by the spec's own
derivation. -/
def Obligations.MaskIsSelfInverse : Prop :=
  ∀ (k : Key) (t : Bytes),
    (mask k t).length = t.length ∧
    (∀ j b, t[j]? = some b → (mask k t)[j]? = some (b ^^^ k.byte (j % 4))) ∧
    mask k (mask k t) = t

/-- 00_scope.md R12: the check accepts exactly the concatenations of zero or more well-formed sequences of the table.
The table is general knowledge, the spec's decision D19 (log 12). -/
def Obligations.UtfCheckIsTheTable : Prop :=
  ∀ t : Bytes, utf8Valid t = true ↔
    ∃ parts : List Bytes, (∀ p ∈ parts, utf8Sequence p = true) ∧ parts.flatten = t

/-- 43_encoder.md R169, which the spec derives: an ENCODE output fed back unmasked is Close(ProtocolError); masked by a
client, it decodes on an Empty tracker to the unit R169 lists. -/
def Obligations.EchoedFrameDecodes : Prop :=
  ∀ (s : State) (u v : LogicalUnit) (i : Instr) (bytes : Bytes) (key : Key) (rest : List Request),
    emitInstr u = some i → i.wellFormed = true → echoUnit u = some v →
    exec i s = .next { s with emitted := some (some bytes) } → bytes.length + 4 < 2 ^ 64 → s.ft.chunks = [] →
    (s.pending = .parse (Memory.ofBytes bytes) 0 :: rest →
      ∃ t, step s = .next t ∧ t.outcome = some (.ok (.close .protocolError))) ∧
    (s.pending = .parse (Memory.ofBytes (echoFrame key bytes)) 0 :: rest →
      ∃ t, step s = .next t ∧ t.outcome = some (.ok v) ∧ t.ft = s.ft ∧ t.cur = bytes.length + 4)

/-! ## Rules of the whole machine -/

/-- 20_memory.md R54: no instruction writes BUF, not one byte of it; nor CUR0, the parameters or the host's requests. -/
def Obligations.NoInstructionWritesBuf : Prop :=
  ∀ (i : Instr) (s t : State), exec i s = .next t →
    t.buf = s.buf ∧ (∀ a, t.buf.get a = s.buf.get a) ∧
    t.cur0 = s.cur0 ∧ t.params = s.params ∧ t.pending = s.pending

/-- Every step keeps the invariant: BUF canonical and below 2^64 bytes, CUR0 <= CUR <= BUFLEN (10_state.md R21), every
unit's text valid UTF-8 and every ping at most 125 bytes (R30). -/
def Obligations.StepKeepsTheInvariant : Prop :=
  ∀ s t : State, MachineInv s → step s = .next t → MachineInv t

/-- 10_state.md R27, which the spec derives: with no bound on the number of chunks, two states whose trackers agree on
emptiness, on the concatenation and, when not Empty, on the shape take steps that agree in the same way. A bound would
count the chunks (log 11). -/
def Obligations.TrackerViewDecidesEveryStep : Prop :=
  ∀ s t : State, s.params.ftCapChunks = none → s.sameView t → Result.agree State.sameView (step s) (step t)

/-- 41_data_frames.md R117, which the spec derives: the only ways to leave Empty are TEXT.N and BIN.N, and the only
instruction that comes back to it is a CONT.F that completes its message. -/
def Obligations.OnlyTextNAndBinNLeaveEmpty : Prop :=
  ∀ (i : Instr) (s t : State), exec i s = .next t →
    (s.ft.isEmpty = true → t.ft.isEmpty = false → ∃ len7, i = .textN len7 ∨ i = .binN len7) ∧
    (s.ft.isEmpty = false → t.ft.isEmpty = true →
      ∃ len7 m, i = .contF len7 ∧ t.outcome = some (.ok (.continuation (some m))))

/-- 60_exceptions.md R186: an IOFailure leaves FT as it was (the spec's decision D8) and CUR between CUR0 and BUFLEN
(its decision D24; the value is free, log 5). -/
def Obligations.IOFailureLeavesTheTracker : Prop :=
  ∀ (i : Instr) (s t : State) (c : IOCause), isEmit i = false → exec i s = .next t →
    t.outcome = some (.ioFailure c) → s.cur0 ≤ s.buf.size →
    t.ft = s.ft ∧ s.cur0 ≤ t.cur ∧ t.cur ≤ s.buf.size

/-- 41_data_frames.md R110, 60_exceptions.md R187: a transaction that returns a Close does not write FT (the spec's
decision D8, log 17). -/
def Obligations.CloseLeavesTheTracker : Prop :=
  ∀ (i : Instr) (s t : State) (status : Status), isEmit i = false → exec i s = .next t →
    t.outcome = some (.ok (.close status)) → t.ft = s.ft

/-- 60_exceptions.md R182: the thirteen causes of Close(ProtocolError), and no other. That the first two need no
complete frame is the spec's decision D5 (log 17). -/
def Obligations.CausesOfProtocolError : Prop :=
  ∀ (i : Instr) (s t : State), isEmit i = false → exec i s = .next t →
    (t.outcome = some (.ok (.close .protocolError)) ↔
      (Header.ofInstr i).rsv ≠ 0 ∨ (Header.ofInstr i).masked = false ∨
      ∃ len7, frameComplete len7 s = true ∧
        let p := framePay len7 s
        (i = .contN len7 ∧ s.ft.isEmpty = true ∨
         i = .contF len7 ∧ s.ft.isEmpty = true ∨
         i = .textF len7 ∧ s.ft.isEmpty = false ∨
         i = .binF len7 ∧ s.ft.isEmpty = false ∨
         i = .closeF len7 ∧ (frameLen len7 s = 1 ∨ 125 < frameLen len7 s) ∨
         i = .closeF len7 ∧ 2 ≤ frameLen len7 s ∧ frameLen len7 s ≤ 125 ∧ be16 p ∉ closeAllow ∨
         i = .closeF len7 ∧ 2 ≤ frameLen len7 s ∧ frameLen len7 s ≤ 125 ∧ utf8Valid (p.drop 2) = false ∨
         i = .pingF len7 ∧ 125 < frameLen len7 s ∨
         i ∈ illegalKinds len7))

/-- 60_exceptions.md R183: the two causes of Close(InvalidDataFormat), and no other. -/
def Obligations.CausesOfInvalidDataFormat : Prop :=
  ∀ (i : Instr) (s t : State), isEmit i = false → exec i s = .next t →
    (t.outcome = some (.ok (.close .invalidDataFormat)) ↔
      ∃ len7, frameComplete len7 s = true ∧
        (i = .textF len7 ∧ s.ft.isEmpty = true ∧ utf8Valid (framePay len7 s) = false ∨
         i = .contF len7 ∧ s.ft.isEmpty = false ∧ s.ft.shape = .text ∧
           utf8Valid (s.ft.concat ++ framePay len7 s) = false))

/-- 60_exceptions.md R184: the two causes of Close(Normal), and no other. -/
def Obligations.CausesOfNormalClose : Prop :=
  ∀ (i : Instr) (s t : State), isEmit i = false → exec i s = .next t →
    (t.outcome = some (.ok (.close .normal)) ↔
      ∃ len7, frameComplete len7 s = true ∧ i = .closeF len7 ∧
        (frameLen len7 s = 0 ∨
         2 ≤ frameLen len7 s ∧ frameLen len7 s ≤ 125 ∧ be16 (framePay len7 s) ∈ closeAllow ∧
           utf8Valid ((framePay len7 s).drop 2) = true))

/-- 60_exceptions.md R195: for every BUF, every CUR0 <= BUFLEN and every FT, PARSE ends with an outcome, the capacity
being unbounded; and no step of any state faults. -/
def Obligations.ParseIsTotal : Prop :=
  (∀ (s : State) (buf : Memory) (cur0 : Nat) (rest : List Request), s.pending = .parse buf cur0 :: rest →
    buf.size < 2 ^ 64 → cur0 ≤ buf.size → s.params = Params.default →
    ∃ t r, step s = .next t ∧ t.outcome = some r) ∧
  (∀ (s : State) (f : Fault), step s ≠ .fault f)

/-- The only instructions that can be refused: a fragment beyond a finite capacity (20_memory.md R49), a ping reply of
more than 125 bytes (43_encoder.md R166, U7). -/
def Obligations.OnlyNamedRefusals : Prop :=
  ∀ (i : Instr) (s : State) (r : Refusal), exec i s = .refused r →
    (r = .ftCapacity ∧ ∃ len7, i = .contN len7 ∨ i = .textN len7 ∨ i = .binN len7) ∨
    (r = .pingTooLong ∧ ∃ p, i = .emitPong p ∧ 125 < p.length)

/-- 60_exceptions.md R188: after an IOFailure, a PARSE of a re-filled buffer from the same offset behaves as if the
failed attempt had never been made; on the same bytes it fails with the same cause. The retry request is the model's
form (log 1); that the failure leaves FT as it was is the spec's decision D8 (log 17). -/
def Obligations.RetryLeavesNoTraceOfTheFailure : Prop :=
  ∀ (s t : State) (buf buf' : Memory) (cur0 : Nat) (rest : List Request) (cause : IOCause),
    s.pending = .parse buf cur0 :: .retry buf' :: rest → step s = .next t → t.outcome = some (.ioFailure cause) →
    Result.agree State.sameParse (step t) (step { s with pending := .parse buf' cur0 :: rest }) ∧
    (buf' = buf → ∃ t', step t = .next t' ∧ t'.outcome = some (.ioFailure cause))
end

