-- ==== Sys2Proof/Laws/Codec.lean ====
section
/-! SUPPORT. Byte order, the mask and the length classes. -/

namespace Sys2Proof.Machine

/-- Shifting in one more byte. -/
theorem beNat_foldl (s : Bytes) (v : Nat) :
    s.foldl (fun v b => v * 256 + b.toNat) v = v * 256 ^ s.length + beNat s := by
  induction s generalizing v with
  | nil => simp [beNat]
  | cons b s ih =>
    simp only [beNat, List.foldl_cons, List.length_cons]
    rw [ih, ih]
    simp only [Nat.pow_succ, Nat.add_mul, Nat.mul_assoc, Nat.mul_comm, Nat.zero_mul, Nat.zero_add, Nat.add_assoc]

theorem beNat_cons (b : Byte) (s : Bytes) : beNat (b :: s) = b.toNat * 256 ^ s.length + beNat s := by
  have h := beNat_foldl s b.toNat
  simpa [beNat] using h

@[simp] theorem beNat_nil : beNat [] = 0 := rfl

/-- n bytes hold a number below 256^n. -/
theorem beNat_lt (s : Bytes) : beNat s < 256 ^ s.length := by
  induction s with
  | nil => simp
  | cons b s ih =>
    rw [beNat_cons, List.length_cons, Nat.pow_succ]
    have hb : b.toNat ≤ 255 := by have := b.isLt; omega
    have h : b.toNat * 256 ^ s.length ≤ 255 * 256 ^ s.length := Nat.mul_le_mul_right _ hb
    omega

@[simp] theorem length_beBytes (n v : Nat) : (beBytes n v).length = n := by
  induction n with
  | zero => rfl
  | succ n ih => simp [beBytes, ih]

/-- Reading back the low n bytes of a number. -/
theorem beNat_beBytes_mod (n v : Nat) : beNat (beBytes n v) = v % 256 ^ n := by
  induction n with
  | zero => simp [beBytes, Nat.mod_one]
  | succ n ih =>
    rw [beBytes, beNat_cons, length_beBytes, ih]
    simp only [BitVec.toNat_ofNat]
    have h : v % 256 ^ (n + 1) = v % 256 ^ n + 256 ^ n * (v / 256 ^ n % 256) := Nat.mod_mul
    rw [h, Nat.mul_comm, Nat.add_comm]

theorem beNat_beBytes {n v : Nat} (h : v < 256 ^ n) : beNat (beBytes n v) = v := by
  rw [beNat_beBytes_mod, Nat.mod_eq_of_lt h]

@[simp] theorem length_maskFrom (k : Key) (i : Nat) (s : Bytes) : (maskFrom k i s).length = s.length := by
  induction s generalizing i with
  | nil => rfl
  | cons b s ih => simp [maskFrom, ih]

@[simp] theorem length_mask (k : Key) (s : Bytes) : (mask k s).length = s.length := length_maskFrom k 0 s

/-- The masked byte at a payload index (40_frontend.md R100). -/
theorem getElem?_maskFrom (k : Key) (i : Nat) (s : Bytes) (j : Nat) :
    (maskFrom k i s)[j]? = s[j]?.map fun b => b ^^^ k.byte (i + j) := by
  induction s generalizing i j with
  | nil => simp [maskFrom]
  | cons b s ih =>
    cases j with
    | zero => simp [maskFrom]
    | succ j => simp only [maskFrom, List.getElem?_cons_succ, ih]; congr 2; funext b; congr 2; omega

@[simp] theorem Key.ofBytes_toBytes (k : Key) : Key.ofBytes k.toBytes = k := rfl

@[simp] theorem length_key_toBytes (k : Key) : k.toBytes.length = 4 := rfl

@[simp] theorem length_ext (c : LenClass) (n : Nat) : (c.ext n).length = c.extBytes := length_beBytes _ _

/-- The length field of a class is read back as that class. -/
theorem ofLen7_len7 {c : LenClass} {n : Nat} (h : c.holds n = true) : LenClass.ofLen7 (c.len7 n) = c := by
  cases c with
  | S =>
    simp only [LenClass.holds, decide_eq_true_eq] at h
    have : n % 2 ^ 7 = n := Nat.mod_eq_of_lt (by omega)
    rw [LenClass.len7, LenClass.ofLen7, BitVec.toNat_ofNat, this, if_pos h]
  | M => rfl
  | L => rfl

/-- The length a class carries is the length decoded (30_encoding.md R63). -/
theorem decLen_ext {c : LenClass} {n : Nat} (h : c.holds n = true) : decLen (c.len7 n) (c.ext n) = n := by
  rw [decLen, ofLen7_len7 h]
  cases c with
  | S =>
    simp only [LenClass.holds, decide_eq_true_eq] at h
    simp only [LenClass.len7, BitVec.toNat_ofNat]
    exact Nat.mod_eq_of_lt (by omega)
  | M =>
    simp only [LenClass.holds, decide_eq_true_eq] at h
    exact beNat_beBytes (by simpa [LenClass.extBytes] using h)
  | L =>
    simp only [LenClass.holds, decide_eq_true_eq] at h
    exact beNat_beBytes (by simpa [LenClass.extBytes] using h)

/-- A decoded length is a u64 (10_state.md R23). -/
theorem decLen_lt (len7 : BitVec 7) (ext : Bytes) (h : ext.length = (LenClass.ofLen7 len7).extBytes) :
    decLen len7 ext < 2 ^ 64 := by
  have hb := beNat_lt ext
  have h7 := len7.isLt
  unfold decLen
  split
  · omega
  · rename_i hc
    rw [h, hc] at hb
    exact Nat.lt_trans hb (by decide)
  · rename_i hc
    rw [h, hc] at hb
    exact Nat.lt_of_lt_of_le hb (by decide)

end Sys2Proof.Machine
end

