-- ==== Sys2Proof/Laws/Memory.lean ====
section
/-! SUPPORT. BUF: reading a slice, and the buffers the host makes are in canonical form and hold their bytes. -/

namespace Sys2Proof.Machine

@[simp] theorem Memory.length_slice (m : Memory) (a n : Nat) : (m.slice a n).length = n := by
  induction n generalizing a with
  | zero => rfl
  | succ n ih => simp [Memory.slice, ih]

/-- A slice, byte by byte (20_memory.md R42). -/
theorem Memory.slice_eq_map (m : Memory) (a n : Nat) :
    m.slice a n = (List.range n).map fun i => m.get (a + i) := by
  induction n generalizing a with
  | zero => rfl
  | succ n ih =>
    rw [Memory.slice, ih, List.range_succ_eq_map, List.map_cons, List.map_map]
    congr 1
    apply List.map_congr_left
    intro i _
    show m.get (a + 1 + i) = m.get (a + (i + 1))
    congr 1
    omega

theorem Memory.bytes?_of_le {m : Memory} {a n : Nat} (h : a + n ≤ m.size) : m.bytes? a n = some (m.slice a n) :=
  if_pos h

theorem risingFrom_mono {lo hi : Nat} (h : lo ≤ hi) {cs : List Host.Cell} (hc : risingFrom hi cs = true) :
    risingFrom lo cs = true := by
  cases cs with
  | nil => rfl
  | cons c cs =>
    simp only [risingFrom, Bool.and_eq_true, decide_eq_true_eq] at hc ⊢
    exact ⟨by omega, hc.2⟩

theorem risingFrom_cellsFrom (a : Nat) (s : Bytes) : risingFrom a (cellsFrom a s) = true := by
  induction s generalizing a with
  | nil => rfl
  | cons b s ih =>
    unfold cellsFrom
    split
    · exact risingFrom_mono (by omega) (ih (a + 1))
    · simp [risingFrom, ih]

theorem mem_cellsFrom {a : Nat} {s : Bytes} {c : Host.Cell} (h : c ∈ cellsFrom a s) :
    c.1 < a + s.length ∧ c.2 ≠ Memory.unlisted := by
  induction s generalizing a with
  | nil => simp [cellsFrom] at h
  | cons b s ih =>
    unfold cellsFrom at h
    split at h
    · have := ih h
      simp only [List.length_cons]
      exact ⟨by omega, this.2⟩
    · rcases List.mem_cons.1 h with rfl | h
      · exact ⟨by simp, by assumption⟩
      · have := ih h
        simp only [List.length_cons]
        exact ⟨by omega, this.2⟩

/-- A host's buffer is in canonical form, whatever its BUFLEN beyond its bytes. -/
theorem wf_cells_of_le {s : Bytes} {n : Nat} (h : s.length ≤ n) :
    Memory.wf { size := n, cells := cellsFrom 0 s } = true := by
  simp only [Memory.wf, Bool.and_eq_true, List.all_eq_true, decide_eq_true_eq, bne_iff_ne]
  refine ⟨risingFrom_cellsFrom 0 s, fun c hc => ?_⟩
  have := mem_cellsFrom hc
  exact ⟨by omega, this.2⟩

@[simp] theorem Memory.ofBytes_wf (s : Bytes) : (Memory.ofBytes s).wf = true := wf_cells_of_le (Nat.le_refl _)

@[simp] theorem Memory.empty_wf : Memory.empty.wf = true := rfl

/-- Nothing stands below the first cell. -/
theorem cellAt_of_lt {lo a : Nat} {cs : List Host.Cell} (h : risingFrom lo cs = true) (ha : a < lo) :
    cellAt cs a = Memory.unlisted := by
  induction cs generalizing lo with
  | nil => rfl
  | cons c cs ih =>
    obtain ⟨k, b⟩ := c
    simp only [risingFrom, Bool.and_eq_true, decide_eq_true_eq] at h
    rw [cellAt, if_neg (by omega)]
    exact ih h.2 (by omega)

theorem cellAt_cellsFrom (a j : Nat) (s : Bytes) : cellAt (cellsFrom a s) (a + j) = s.getD j Memory.unlisted := by
  induction s generalizing a j with
  | nil => simp [cellsFrom, cellAt]
  | cons b s ih =>
    cases j with
    | zero =>
      unfold cellsFrom
      split
      · rename_i hb
        rw [cellAt_of_lt (risingFrom_cellsFrom (a + 1) s) (by omega)]
        simp [hb]
      · simp [cellAt]
    | succ j =>
      have h := ih (a + 1) j
      have e : a + (j + 1) = a + 1 + j := by omega
      unfold cellsFrom
      split
      · rw [e, h]; simp
      · rw [cellAt, if_neg (by omega), e, h]; simp

/-- Reading a byte of a host's buffer gives the byte the host put there. -/
theorem Memory.get_ofBytes (s : Bytes) (j : Nat) : (Memory.ofBytes s).get j = s.getD j Memory.unlisted := by
  have := cellAt_cellsFrom 0 j s
  simpa [Memory.get, Memory.ofBytes] using this

@[simp] theorem Memory.size_ofBytes (s : Bytes) : (Memory.ofBytes s).size = s.length := rfl

/-- Reading n bytes of a host's buffer gives those the host put there. -/
theorem Memory.slice_ofBytes {s : Bytes} {a n : Nat} (h : a + n ≤ s.length) :
    (Memory.ofBytes s).slice a n = (s.drop a).take n := by
  rw [Memory.slice_eq_map]
  apply List.ext_getElem?
  intro i
  by_cases hi : i < n
  · simp only [List.getElem?_map, List.getElem?_range hi, Option.map_some, Memory.get_ofBytes, List.getElem?_take,
      List.getElem?_drop, if_pos hi, List.getD_eq_getElem?_getD]
    rw [List.getElem?_eq_getElem (by omega)]
    rfl
  · rw [List.getElem?_eq_none (by simp; omega), List.getElem?_eq_none (by simp; omega)]

@[simp] theorem length_tableBytes (nbits w : Nat) : (tableBytes nbits w).length = 2 * ((nbits + 15) / 16) := by
  have h : ∀ n, ((List.range n).flatMap fun k => beBytes 2 (w / 65536 ^ k % 65536)).length = 2 * n := by
    intro n
    induction n with
    | zero => rfl
    | succ n ih => simp [List.range_succ, ih]; omega
  exact h _

/-- The buffer of an opcode-table number is in canonical form, the number's bytes fitting in it. -/
theorem fetchBuffer_wf (nbits w : Nat) (h : nbits ≤ 2 ^ 16) : (fetchBuffer nbits w).wf = true :=
  wf_cells_of_le (by rw [length_tableBytes]; omega)

end Sys2Proof.Machine
end

