-- ==== Sys2Proof/Laws/State.lean ====
section
/-! SUPPORT. What each update of State leaves in each field. -/

namespace Sys2Proof.Machine

@[simp] theorem State.advance_params (s : State) (n : Nat) : (s.advance n).params = s.params := rfl
@[simp] theorem State.advance_ft (s : State) (n : Nat) : (s.advance n).ft = s.ft := rfl
@[simp] theorem State.advance_buf (s : State) (n : Nat) : (s.advance n).buf = s.buf := rfl
@[simp] theorem State.advance_cur0 (s : State) (n : Nat) : (s.advance n).cur0 = s.cur0 := rfl
@[simp] theorem State.advance_cur (s : State) (n : Nat) : (s.advance n).cur = s.cur + n := rfl
@[simp] theorem State.advance_fin (s : State) (n : Nat) : (s.advance n).fin = s.fin := rfl
@[simp] theorem State.advance_rsv (s : State) (n : Nat) : (s.advance n).rsv = s.rsv := rfl
@[simp] theorem State.advance_opcode (s : State) (n : Nat) : (s.advance n).opcode = s.opcode := rfl
@[simp] theorem State.advance_masked (s : State) (n : Nat) : (s.advance n).masked = s.masked := rfl
@[simp] theorem State.advance_len7 (s : State) (n : Nat) : (s.advance n).len7 = s.len7 := rfl
@[simp] theorem State.advance_paylen (s : State) (n : Nat) : (s.advance n).paylen = s.paylen := rfl
@[simp] theorem State.advance_key (s : State) (n : Nat) : (s.advance n).key = s.key := rfl
@[simp] theorem State.advance_pay (s : State) (n : Nat) : (s.advance n).pay = s.pay := rfl
@[simp] theorem State.advance_outcome (s : State) (n : Nat) : (s.advance n).outcome = s.outcome := rfl
@[simp] theorem State.advance_emitted (s : State) (n : Nat) : (s.advance n).emitted = s.emitted := rfl
@[simp] theorem State.advance_pending (s : State) (n : Nat) : (s.advance n).pending = s.pending := rfl
@[simp] theorem State.advance_draws (s : State) (n : Nat) : (s.advance n).draws = s.draws := rfl

@[simp] theorem State.load_params (s : State) (buf : Memory) (c : Nat) : (s.load buf c).params = s.params := rfl
@[simp] theorem State.load_ft (s : State) (buf : Memory) (c : Nat) : (s.load buf c).ft = s.ft := rfl
@[simp] theorem State.load_buf (s : State) (buf : Memory) (c : Nat) : (s.load buf c).buf = buf := rfl
@[simp] theorem State.load_cur0 (s : State) (buf : Memory) (c : Nat) : (s.load buf c).cur0 = c := rfl
@[simp] theorem State.load_cur (s : State) (buf : Memory) (c : Nat) : (s.load buf c).cur = c := rfl
@[simp] theorem State.load_fin (s : State) (buf : Memory) (c : Nat) : (s.load buf c).fin = s.fin := rfl
@[simp] theorem State.load_rsv (s : State) (buf : Memory) (c : Nat) : (s.load buf c).rsv = s.rsv := rfl
@[simp] theorem State.load_opcode (s : State) (buf : Memory) (c : Nat) : (s.load buf c).opcode = s.opcode := rfl
@[simp] theorem State.load_masked (s : State) (buf : Memory) (c : Nat) : (s.load buf c).masked = s.masked := rfl
@[simp] theorem State.load_len7 (s : State) (buf : Memory) (c : Nat) : (s.load buf c).len7 = s.len7 := rfl
@[simp] theorem State.load_paylen (s : State) (buf : Memory) (c : Nat) : (s.load buf c).paylen = s.paylen := rfl
@[simp] theorem State.load_key (s : State) (buf : Memory) (c : Nat) : (s.load buf c).key = s.key := rfl
@[simp] theorem State.load_pay (s : State) (buf : Memory) (c : Nat) : (s.load buf c).pay = s.pay := rfl
@[simp] theorem State.load_outcome (s : State) (buf : Memory) (c : Nat) : (s.load buf c).outcome = s.outcome := rfl
@[simp] theorem State.load_emitted (s : State) (buf : Memory) (c : Nat) : (s.load buf c).emitted = s.emitted := rfl
@[simp] theorem State.load_pending (s : State) (buf : Memory) (c : Nat) : (s.load buf c).pending = s.pending := rfl
@[simp] theorem State.load_draws (s : State) (buf : Memory) (c : Nat) : (s.load buf c).draws = s.draws := rfl

@[simp] theorem State.latch_params (s : State) (h : Header) : (s.latch h).params = s.params := rfl
@[simp] theorem State.latch_ft (s : State) (h : Header) : (s.latch h).ft = s.ft := rfl
@[simp] theorem State.latch_buf (s : State) (h : Header) : (s.latch h).buf = s.buf := rfl
@[simp] theorem State.latch_cur0 (s : State) (h : Header) : (s.latch h).cur0 = s.cur0 := rfl
@[simp] theorem State.latch_cur (s : State) (h : Header) : (s.latch h).cur = s.cur := rfl
@[simp] theorem State.latch_fin (s : State) (h : Header) : (s.latch h).fin = h.fin := rfl
@[simp] theorem State.latch_rsv (s : State) (h : Header) : (s.latch h).rsv = h.rsv := rfl
@[simp] theorem State.latch_opcode (s : State) (h : Header) : (s.latch h).opcode = h.opcode := rfl
@[simp] theorem State.latch_masked (s : State) (h : Header) : (s.latch h).masked = h.masked := rfl
@[simp] theorem State.latch_len7 (s : State) (h : Header) : (s.latch h).len7 = h.len7 := rfl
@[simp] theorem State.latch_paylen (s : State) (h : Header) : (s.latch h).paylen = s.paylen := rfl
@[simp] theorem State.latch_key (s : State) (h : Header) : (s.latch h).key = s.key := rfl
@[simp] theorem State.latch_pay (s : State) (h : Header) : (s.latch h).pay = s.pay := rfl
@[simp] theorem State.latch_outcome (s : State) (h : Header) : (s.latch h).outcome = s.outcome := rfl
@[simp] theorem State.latch_emitted (s : State) (h : Header) : (s.latch h).emitted = s.emitted := rfl
@[simp] theorem State.latch_pending (s : State) (h : Header) : (s.latch h).pending = s.pending := rfl
@[simp] theorem State.latch_draws (s : State) (h : Header) : (s.latch h).draws = s.draws := rfl

@[simp] theorem State.setPaylen_params (s : State) (v : BitVec 64) : (s.setPaylen v).params = s.params := rfl
@[simp] theorem State.setPaylen_ft (s : State) (v : BitVec 64) : (s.setPaylen v).ft = s.ft := rfl
@[simp] theorem State.setPaylen_buf (s : State) (v : BitVec 64) : (s.setPaylen v).buf = s.buf := rfl
@[simp] theorem State.setPaylen_cur0 (s : State) (v : BitVec 64) : (s.setPaylen v).cur0 = s.cur0 := rfl
@[simp] theorem State.setPaylen_cur (s : State) (v : BitVec 64) : (s.setPaylen v).cur = s.cur := rfl
@[simp] theorem State.setPaylen_fin (s : State) (v : BitVec 64) : (s.setPaylen v).fin = s.fin := rfl
@[simp] theorem State.setPaylen_rsv (s : State) (v : BitVec 64) : (s.setPaylen v).rsv = s.rsv := rfl
@[simp] theorem State.setPaylen_opcode (s : State) (v : BitVec 64) : (s.setPaylen v).opcode = s.opcode := rfl
@[simp] theorem State.setPaylen_masked (s : State) (v : BitVec 64) : (s.setPaylen v).masked = s.masked := rfl
@[simp] theorem State.setPaylen_len7 (s : State) (v : BitVec 64) : (s.setPaylen v).len7 = s.len7 := rfl
@[simp] theorem State.setPaylen_paylen (s : State) (v : BitVec 64) : (s.setPaylen v).paylen = v := rfl
@[simp] theorem State.setPaylen_key (s : State) (v : BitVec 64) : (s.setPaylen v).key = s.key := rfl
@[simp] theorem State.setPaylen_pay (s : State) (v : BitVec 64) : (s.setPaylen v).pay = s.pay := rfl
@[simp] theorem State.setPaylen_outcome (s : State) (v : BitVec 64) : (s.setPaylen v).outcome = s.outcome := rfl
@[simp] theorem State.setPaylen_emitted (s : State) (v : BitVec 64) : (s.setPaylen v).emitted = s.emitted := rfl
@[simp] theorem State.setPaylen_pending (s : State) (v : BitVec 64) : (s.setPaylen v).pending = s.pending := rfl
@[simp] theorem State.setPaylen_draws (s : State) (v : BitVec 64) : (s.setPaylen v).draws = s.draws := rfl

@[simp] theorem State.setKey_params (s : State) (k : Key) : (s.setKey k).params = s.params := rfl
@[simp] theorem State.setKey_ft (s : State) (k : Key) : (s.setKey k).ft = s.ft := rfl
@[simp] theorem State.setKey_buf (s : State) (k : Key) : (s.setKey k).buf = s.buf := rfl
@[simp] theorem State.setKey_cur0 (s : State) (k : Key) : (s.setKey k).cur0 = s.cur0 := rfl
@[simp] theorem State.setKey_cur (s : State) (k : Key) : (s.setKey k).cur = s.cur := rfl
@[simp] theorem State.setKey_fin (s : State) (k : Key) : (s.setKey k).fin = s.fin := rfl
@[simp] theorem State.setKey_rsv (s : State) (k : Key) : (s.setKey k).rsv = s.rsv := rfl
@[simp] theorem State.setKey_opcode (s : State) (k : Key) : (s.setKey k).opcode = s.opcode := rfl
@[simp] theorem State.setKey_masked (s : State) (k : Key) : (s.setKey k).masked = s.masked := rfl
@[simp] theorem State.setKey_len7 (s : State) (k : Key) : (s.setKey k).len7 = s.len7 := rfl
@[simp] theorem State.setKey_paylen (s : State) (k : Key) : (s.setKey k).paylen = s.paylen := rfl
@[simp] theorem State.setKey_key (s : State) (k : Key) : (s.setKey k).key = k := rfl
@[simp] theorem State.setKey_pay (s : State) (k : Key) : (s.setKey k).pay = s.pay := rfl
@[simp] theorem State.setKey_outcome (s : State) (k : Key) : (s.setKey k).outcome = s.outcome := rfl
@[simp] theorem State.setKey_emitted (s : State) (k : Key) : (s.setKey k).emitted = s.emitted := rfl
@[simp] theorem State.setKey_pending (s : State) (k : Key) : (s.setKey k).pending = s.pending := rfl
@[simp] theorem State.setKey_draws (s : State) (k : Key) : (s.setKey k).draws = s.draws := rfl

@[simp] theorem State.setPay_params (s : State) (p : Bytes) : (s.setPay p).params = s.params := rfl
@[simp] theorem State.setPay_ft (s : State) (p : Bytes) : (s.setPay p).ft = s.ft := rfl
@[simp] theorem State.setPay_buf (s : State) (p : Bytes) : (s.setPay p).buf = s.buf := rfl
@[simp] theorem State.setPay_cur0 (s : State) (p : Bytes) : (s.setPay p).cur0 = s.cur0 := rfl
@[simp] theorem State.setPay_cur (s : State) (p : Bytes) : (s.setPay p).cur = s.cur := rfl
@[simp] theorem State.setPay_fin (s : State) (p : Bytes) : (s.setPay p).fin = s.fin := rfl
@[simp] theorem State.setPay_rsv (s : State) (p : Bytes) : (s.setPay p).rsv = s.rsv := rfl
@[simp] theorem State.setPay_opcode (s : State) (p : Bytes) : (s.setPay p).opcode = s.opcode := rfl
@[simp] theorem State.setPay_masked (s : State) (p : Bytes) : (s.setPay p).masked = s.masked := rfl
@[simp] theorem State.setPay_len7 (s : State) (p : Bytes) : (s.setPay p).len7 = s.len7 := rfl
@[simp] theorem State.setPay_paylen (s : State) (p : Bytes) : (s.setPay p).paylen = s.paylen := rfl
@[simp] theorem State.setPay_key (s : State) (p : Bytes) : (s.setPay p).key = s.key := rfl
@[simp] theorem State.setPay_pay (s : State) (p : Bytes) : (s.setPay p).pay = p := rfl
@[simp] theorem State.setPay_outcome (s : State) (p : Bytes) : (s.setPay p).outcome = s.outcome := rfl
@[simp] theorem State.setPay_emitted (s : State) (p : Bytes) : (s.setPay p).emitted = s.emitted := rfl
@[simp] theorem State.setPay_pending (s : State) (p : Bytes) : (s.setPay p).pending = s.pending := rfl
@[simp] theorem State.setPay_draws (s : State) (p : Bytes) : (s.setPay p).draws = s.draws := rfl

@[simp] theorem State.setFt_params (s : State) (t : Tracker) : (s.setFt t).params = s.params := rfl
@[simp] theorem State.setFt_ft (s : State) (t : Tracker) : (s.setFt t).ft = t := rfl
@[simp] theorem State.setFt_buf (s : State) (t : Tracker) : (s.setFt t).buf = s.buf := rfl
@[simp] theorem State.setFt_cur0 (s : State) (t : Tracker) : (s.setFt t).cur0 = s.cur0 := rfl
@[simp] theorem State.setFt_cur (s : State) (t : Tracker) : (s.setFt t).cur = s.cur := rfl
@[simp] theorem State.setFt_fin (s : State) (t : Tracker) : (s.setFt t).fin = s.fin := rfl
@[simp] theorem State.setFt_rsv (s : State) (t : Tracker) : (s.setFt t).rsv = s.rsv := rfl
@[simp] theorem State.setFt_opcode (s : State) (t : Tracker) : (s.setFt t).opcode = s.opcode := rfl
@[simp] theorem State.setFt_masked (s : State) (t : Tracker) : (s.setFt t).masked = s.masked := rfl
@[simp] theorem State.setFt_len7 (s : State) (t : Tracker) : (s.setFt t).len7 = s.len7 := rfl
@[simp] theorem State.setFt_paylen (s : State) (t : Tracker) : (s.setFt t).paylen = s.paylen := rfl
@[simp] theorem State.setFt_key (s : State) (t : Tracker) : (s.setFt t).key = s.key := rfl
@[simp] theorem State.setFt_pay (s : State) (t : Tracker) : (s.setFt t).pay = s.pay := rfl
@[simp] theorem State.setFt_outcome (s : State) (t : Tracker) : (s.setFt t).outcome = s.outcome := rfl
@[simp] theorem State.setFt_emitted (s : State) (t : Tracker) : (s.setFt t).emitted = s.emitted := rfl
@[simp] theorem State.setFt_pending (s : State) (t : Tracker) : (s.setFt t).pending = s.pending := rfl
@[simp] theorem State.setFt_draws (s : State) (t : Tracker) : (s.setFt t).draws = s.draws := rfl

@[simp] theorem State.setOutcome_params (s : State) (r : ParseResult) : (s.setOutcome r).params = s.params := rfl
@[simp] theorem State.setOutcome_ft (s : State) (r : ParseResult) : (s.setOutcome r).ft = s.ft := rfl
@[simp] theorem State.setOutcome_buf (s : State) (r : ParseResult) : (s.setOutcome r).buf = s.buf := rfl
@[simp] theorem State.setOutcome_cur0 (s : State) (r : ParseResult) : (s.setOutcome r).cur0 = s.cur0 := rfl
@[simp] theorem State.setOutcome_cur (s : State) (r : ParseResult) : (s.setOutcome r).cur = s.cur := rfl
@[simp] theorem State.setOutcome_fin (s : State) (r : ParseResult) : (s.setOutcome r).fin = s.fin := rfl
@[simp] theorem State.setOutcome_rsv (s : State) (r : ParseResult) : (s.setOutcome r).rsv = s.rsv := rfl
@[simp] theorem State.setOutcome_opcode (s : State) (r : ParseResult) : (s.setOutcome r).opcode = s.opcode := rfl
@[simp] theorem State.setOutcome_masked (s : State) (r : ParseResult) : (s.setOutcome r).masked = s.masked := rfl
@[simp] theorem State.setOutcome_len7 (s : State) (r : ParseResult) : (s.setOutcome r).len7 = s.len7 := rfl
@[simp] theorem State.setOutcome_paylen (s : State) (r : ParseResult) : (s.setOutcome r).paylen = s.paylen := rfl
@[simp] theorem State.setOutcome_key (s : State) (r : ParseResult) : (s.setOutcome r).key = s.key := rfl
@[simp] theorem State.setOutcome_pay (s : State) (r : ParseResult) : (s.setOutcome r).pay = s.pay := rfl
@[simp] theorem State.setOutcome_outcome (s : State) (r : ParseResult) : (s.setOutcome r).outcome = some r := rfl
@[simp] theorem State.setOutcome_emitted (s : State) (r : ParseResult) : (s.setOutcome r).emitted = s.emitted := rfl
@[simp] theorem State.setOutcome_pending (s : State) (r : ParseResult) : (s.setOutcome r).pending = s.pending := rfl
@[simp] theorem State.setOutcome_draws (s : State) (r : ParseResult) : (s.setOutcome r).draws = s.draws := rfl

@[simp] theorem State.setEmitted_params (s : State) (r : Option Bytes) : (s.setEmitted r).params = s.params := rfl
@[simp] theorem State.setEmitted_ft (s : State) (r : Option Bytes) : (s.setEmitted r).ft = s.ft := rfl
@[simp] theorem State.setEmitted_buf (s : State) (r : Option Bytes) : (s.setEmitted r).buf = s.buf := rfl
@[simp] theorem State.setEmitted_cur0 (s : State) (r : Option Bytes) : (s.setEmitted r).cur0 = s.cur0 := rfl
@[simp] theorem State.setEmitted_cur (s : State) (r : Option Bytes) : (s.setEmitted r).cur = s.cur := rfl
@[simp] theorem State.setEmitted_fin (s : State) (r : Option Bytes) : (s.setEmitted r).fin = s.fin := rfl
@[simp] theorem State.setEmitted_rsv (s : State) (r : Option Bytes) : (s.setEmitted r).rsv = s.rsv := rfl
@[simp] theorem State.setEmitted_opcode (s : State) (r : Option Bytes) : (s.setEmitted r).opcode = s.opcode := rfl
@[simp] theorem State.setEmitted_masked (s : State) (r : Option Bytes) : (s.setEmitted r).masked = s.masked := rfl
@[simp] theorem State.setEmitted_len7 (s : State) (r : Option Bytes) : (s.setEmitted r).len7 = s.len7 := rfl
@[simp] theorem State.setEmitted_paylen (s : State) (r : Option Bytes) : (s.setEmitted r).paylen = s.paylen := rfl
@[simp] theorem State.setEmitted_key (s : State) (r : Option Bytes) : (s.setEmitted r).key = s.key := rfl
@[simp] theorem State.setEmitted_pay (s : State) (r : Option Bytes) : (s.setEmitted r).pay = s.pay := rfl
@[simp] theorem State.setEmitted_outcome (s : State) (r : Option Bytes) : (s.setEmitted r).outcome = s.outcome := rfl
@[simp] theorem State.setEmitted_emitted (s : State) (r : Option Bytes) : (s.setEmitted r).emitted = some r := rfl
@[simp] theorem State.setEmitted_pending (s : State) (r : Option Bytes) : (s.setEmitted r).pending = s.pending := rfl
@[simp] theorem State.setEmitted_draws (s : State) (r : Option Bytes) : (s.setEmitted r).draws = s.draws := rfl

@[simp] theorem State.drawCur_params (s : State) (c : Nat) : (s.drawCur c).params = s.params := rfl
@[simp] theorem State.drawCur_ft (s : State) (c : Nat) : (s.drawCur c).ft = s.ft := rfl
@[simp] theorem State.drawCur_buf (s : State) (c : Nat) : (s.drawCur c).buf = s.buf := rfl
@[simp] theorem State.drawCur_cur0 (s : State) (c : Nat) : (s.drawCur c).cur0 = s.cur0 := rfl
@[simp] theorem State.drawCur_cur (s : State) (c : Nat) : (s.drawCur c).cur = c := rfl
@[simp] theorem State.drawCur_fin (s : State) (c : Nat) : (s.drawCur c).fin = s.fin := rfl
@[simp] theorem State.drawCur_rsv (s : State) (c : Nat) : (s.drawCur c).rsv = s.rsv := rfl
@[simp] theorem State.drawCur_opcode (s : State) (c : Nat) : (s.drawCur c).opcode = s.opcode := rfl
@[simp] theorem State.drawCur_masked (s : State) (c : Nat) : (s.drawCur c).masked = s.masked := rfl
@[simp] theorem State.drawCur_len7 (s : State) (c : Nat) : (s.drawCur c).len7 = s.len7 := rfl
@[simp] theorem State.drawCur_paylen (s : State) (c : Nat) : (s.drawCur c).paylen = s.paylen := rfl
@[simp] theorem State.drawCur_key (s : State) (c : Nat) : (s.drawCur c).key = s.key := rfl
@[simp] theorem State.drawCur_pay (s : State) (c : Nat) : (s.drawCur c).pay = s.pay := rfl
@[simp] theorem State.drawCur_outcome (s : State) (c : Nat) : (s.drawCur c).outcome = s.outcome := rfl
@[simp] theorem State.drawCur_emitted (s : State) (c : Nat) : (s.drawCur c).emitted = s.emitted := rfl
@[simp] theorem State.drawCur_pending (s : State) (c : Nat) : (s.drawCur c).pending = s.pending := rfl
@[simp] theorem State.drawCur_draws (s : State) (c : Nat) : (s.drawCur c).draws = s.draws + 1 := rfl

@[simp] theorem State.setPending_params (s : State) (q : List Request) : (s.setPending q).params = s.params := rfl
@[simp] theorem State.setPending_ft (s : State) (q : List Request) : (s.setPending q).ft = s.ft := rfl
@[simp] theorem State.setPending_buf (s : State) (q : List Request) : (s.setPending q).buf = s.buf := rfl
@[simp] theorem State.setPending_cur0 (s : State) (q : List Request) : (s.setPending q).cur0 = s.cur0 := rfl
@[simp] theorem State.setPending_cur (s : State) (q : List Request) : (s.setPending q).cur = s.cur := rfl
@[simp] theorem State.setPending_fin (s : State) (q : List Request) : (s.setPending q).fin = s.fin := rfl
@[simp] theorem State.setPending_rsv (s : State) (q : List Request) : (s.setPending q).rsv = s.rsv := rfl
@[simp] theorem State.setPending_opcode (s : State) (q : List Request) : (s.setPending q).opcode = s.opcode := rfl
@[simp] theorem State.setPending_masked (s : State) (q : List Request) : (s.setPending q).masked = s.masked := rfl
@[simp] theorem State.setPending_len7 (s : State) (q : List Request) : (s.setPending q).len7 = s.len7 := rfl
@[simp] theorem State.setPending_paylen (s : State) (q : List Request) : (s.setPending q).paylen = s.paylen := rfl
@[simp] theorem State.setPending_key (s : State) (q : List Request) : (s.setPending q).key = s.key := rfl
@[simp] theorem State.setPending_pay (s : State) (q : List Request) : (s.setPending q).pay = s.pay := rfl
@[simp] theorem State.setPending_outcome (s : State) (q : List Request) : (s.setPending q).outcome = s.outcome := rfl
@[simp] theorem State.setPending_emitted (s : State) (q : List Request) : (s.setPending q).emitted = s.emitted := rfl
@[simp] theorem State.setPending_pending (s : State) (q : List Request) : (s.setPending q).pending = q := rfl
@[simp] theorem State.setPending_draws (s : State) (q : List Request) : (s.setPending q).draws = s.draws := rfl

end Sys2Proof.Machine
end

