-- ==== Sys2Proof/Laws/Ops.lean ====
section
/-! SUPPORT. For each shared operation, one lemma that says everything it can do. -/

namespace Sys2Proof.Machine

/-- A read whose `requires` test holds. -/
theorem readBytes_of_le {n : Nat} {s : State} (h : s.cur + n ≤ s.buf.size) (k : Bytes → State → Result) :
    readBytes n s k = k (s.buf.slice s.cur n) (s.advance n) := by
  rw [readBytes, Memory.bytes?_of_le h]

/-- `avail` counts the bytes left: a read of n > 0 bytes fits exactly when avail ≥ n (20_memory.md R42). -/
theorem avail_lt_iff {n : Nat} {s : State} (hn : 0 < n) : s.avail < n ↔ s.buf.size < s.cur + n := by
  unfold State.avail; omega

/-- Step HDR (40_frontend.md R91): IOFailure(HEADER), or the five fields latched and two bytes consumed. -/
theorem readHeader_eq (s : State) (k : State → Result) :
    readHeader s k =
      if s.buf.size < s.cur + 2 then raiseIOFailure .header s
      else k ((s.advance 2).latch (Header.ofBytes (s.buf.get s.cur) (s.buf.get (s.cur + 1)))) := by
  unfold readHeader
  by_cases h : s.buf.size < s.cur + 2
  · rw [if_pos ((avail_lt_iff (by decide)).2 h), if_pos h]
  · rw [if_neg (fun h' => h ((avail_lt_iff (by decide)).1 h')), if_neg h]
    have h1 : (s.advance 1).cur + 1 ≤ (s.advance 1).buf.size := by simp; omega
    simp only [readU8]
    rw [readBytes_of_le (by omega)]
    simp only [readBytes_of_le h1]
    rfl

/-- The state an IOFailure leaves (60_exceptions.md R186). -/
theorem raiseIOFailure_eq (c : IOCause) (s : State) :
    raiseIOFailure c s = .next ((s.drawCur s.unspecifiedCur).setOutcome (.ioFailure c)) := rfl

/-- The unspecified cursor lies between CUR0 and BUFLEN (R186). -/
theorem unspecifiedCur_bounds {s : State} (h : s.cur0 ≤ s.buf.size) :
    s.cur0 ≤ s.unspecifiedCur ∧ s.unspecifiedCur ≤ s.buf.size := by
  unfold State.unspecifiedCur
  have := Nat.mod_lt (Config.freeCursor s.draws) (show 0 < s.buf.size + 1 - s.cur0 by omega)
  omega

/-- A tracker write goes on or is refused, never a Close and never an IOFailure (20_memory.md R49). -/
theorem ftWrite_eq (t : Tracker) (s : State) (k : State → Result) :
    ftWrite t s k = if admits s.params t then k (s.setFt t) else .refused .ftCapacity := rfl

/-- With the default parameters every tracker write is admitted (R49). -/
@[simp] theorem admits_default (t : Tracker) : admits Params.default t = true := rfl

/-- The state once EXTLEN has read the length. -/
def State.lenRead (s : State) (len7 : BitVec 7) : State :=
  (s.advance (extSize len7)).setPaylen (BitVec.ofNat 64 (frameLen len7 s))

/-- The state once KEY has read the key. -/
def State.keyRead (s : State) (len7 : BitVec 7) : State :=
  ((s.lenRead len7).advance 4).setKey (frameKey len7 s)

/-- The state DISPATCH starts from. -/
def State.atDispatch (s : State) (len7 : BitVec 7) : State :=
  ((s.keyRead len7).advance (frameLen len7 s)).setPay (framePay len7 s)

/-- A payload length is a u64 (10_state.md R23). -/
theorem frameLen_lt (len7 : BitVec 7) (s : State) : frameLen len7 s < 2 ^ 64 :=
  decLen_lt _ _ (Memory.length_slice _ _ _)

theorem paylen_toNat (len7 : BitVec 7) (s : State) :
    (BitVec.ofNat 64 (frameLen len7 s)).toNat = frameLen len7 s := by
  rw [BitVec.toNat_ofNat, Nat.mod_eq_of_lt (frameLen_lt len7 s)]

/-- Step EXTLEN (40_frontend.md R93): IOFailure(EXTLEN) where the field is cut short, else PAYLEN read. -/
theorem extLen_eq (len7 : BitVec 7) (s : State) (k : State → Result) :
    extLen len7 s k = if extCut len7 s then raiseIOFailure .extlen s else k (s.lenRead len7) := by
  unfold extLen extCut State.lenRead frameLen decLen keyOffset extSize
  have h7 := len7.isLt
  cases hc : LenClass.ofLen7 len7 with
  | S =>
    simp only [LenClass.extBytes]
    have : len7.setWidth 64 = BitVec.ofNat 64 len7.toNat := by
      apply BitVec.eq_of_toNat_eq; simp
    rw [this]; rfl
  | M =>
    simp only [LenClass.extBytes]
    by_cases h : s.buf.size < s.cur + 2
    · rw [if_pos ((avail_lt_iff (by decide)).2 h)]; simp [h]
    · rw [if_neg (fun h' => h ((avail_lt_iff (by decide)).1 h')), readBE16, readBytes_of_le (by omega)]
      have hb := beNat_lt (s.buf.slice s.cur 2)
      rw [Memory.length_slice] at hb
      have : (BitVec.ofNat 16 (beNat (s.buf.slice s.cur 2))).setWidth 64
          = BitVec.ofNat 64 (beNat (s.buf.slice s.cur 2)) := by
        apply BitVec.eq_of_toNat_eq
        simp only [BitVec.toNat_setWidth, BitVec.toNat_ofNat]
        rw [Nat.mod_eq_of_lt (a := beNat _) (b := 2 ^ 16) (by omega)]
      simp [h, this]
  | L =>
    simp only [LenClass.extBytes]
    by_cases h : s.buf.size < s.cur + 8
    · rw [if_pos ((avail_lt_iff (by decide)).2 h)]; simp [h]
    · rw [if_neg (fun h' => h ((avail_lt_iff (by decide)).1 h')), readBE64, readBytes_of_le (by omega)]
      simp [h]

/-- Step KEY (R94): IOFailure(MASK) where fewer than four bytes are left, else KEY read. -/
theorem readKey_eq (len7 : BitVec 7) (s : State) (k : State → Result) :
    readKey (s.lenRead len7) k =
      if s.buf.size < keyOffset len7 s + 4 then raiseIOFailure .mask (s.lenRead len7)
      else k (s.keyRead len7) := by
  unfold readKey
  have hc : (s.lenRead len7).cur = keyOffset len7 s := rfl
  have hb : (s.lenRead len7).buf = s.buf := rfl
  by_cases h : s.buf.size < keyOffset len7 s + 4
  · rw [if_pos ((avail_lt_iff (by decide)).2 (by rw [hb, hc]; exact h)), if_pos h]
  · rw [if_neg (fun h' => h (by rw [← hb, ← hc]; exact (avail_lt_iff (by decide)).1 h')), if_neg h,
      readBytes_of_le (by rw [hb, hc]; omega)]
    rfl

/-- Masking a slice of BUF, byte by byte. -/
theorem mask_slice (k : Key) (m : Memory) (a n : Nat) :
    mask k (m.slice a n) = (List.range n).map fun i => m.get (a + i) ^^^ k.byte i := by
  apply List.ext_getElem?
  intro i
  rw [mask, getElem?_maskFrom, Memory.slice_eq_map, List.getElem?_map, List.getElem?_map, Option.map_map]
  by_cases hi : i < n
  · rw [List.getElem?_range hi]
    simp
  · rw [List.getElem?_eq_none (by simp; omega)]
    rfl

/-- Steps PAYLOAD and UNMASK (R95, R96): IOFailure(PAYLOAD) where the payload is cut short, else PAY written. -/
theorem readPayload_eq (len7 : BitVec 7) (s : State) (hk : keyOffset len7 s + 4 ≤ s.buf.size) (k : State → Result) :
    readPayload (s.keyRead len7) k =
      if s.buf.size < frameEnd len7 s then raiseIOFailure .payload (s.keyRead len7)
      else k (s.atDispatch len7) := by
  unfold readPayload
  have hc : (s.keyRead len7).cur = keyOffset len7 s + 4 := rfl
  have hb : (s.keyRead len7).buf = s.buf := rfl
  have hp : (s.keyRead len7).paylen.toNat = frameLen len7 s := paylen_toNat len7 s
  have ha : (s.keyRead len7).avail < frameLen len7 s ↔ s.buf.size < frameEnd len7 s := by
    unfold State.avail frameEnd; rw [hb, hc]; omega
  rw [hp]
  by_cases h : s.buf.size < frameEnd len7 s
  · rw [if_pos (ha.2 h), if_pos h]
  · rw [if_neg (fun h' => h (ha.1 h')), if_neg h,
      readBytes_of_le (by rw [hb, hc]; unfold frameEnd at h; omega), hb, hc, mask_slice]
    rfl

/-- The whole of a frame between the header and DISPATCH (40_frontend.md R90): the first field cut short raises its
IOFailure, and a complete frame reaches DISPATCH (60_exceptions.md R185). -/
theorem readFrame_eq (len7 : BitVec 7) (s : State) (d : State → Result) :
    readFrame len7 s d =
      if extCut len7 s then raiseIOFailure .extlen s
      else if keyCut len7 s then raiseIOFailure .mask (s.lenRead len7)
      else if payCut len7 s then raiseIOFailure .payload (s.keyRead len7)
      else d (s.atDispatch len7) := by
  unfold readFrame
  rw [extLen_eq]
  by_cases he : extCut len7 s
  · rw [if_pos he, if_pos he]
  · rw [if_neg he, if_neg he, readKey_eq]
    by_cases hk : s.buf.size < keyOffset len7 s + 4
    · rw [if_pos hk, if_pos (by simp [keyCut, he, hk])]
    · rw [if_neg hk, if_neg (by simp [keyCut, hk]), readPayload_eq len7 s (by omega)]
      by_cases hp : s.buf.size < frameEnd len7 s
      · rw [if_pos hp, if_pos (by simp [payCut, hp]; omega)]
      · rw [if_neg hp, if_neg (by simp [payCut, hp])]

/-- A complete frame is cut nowhere, and the other way round. -/
theorem frameComplete_iff (len7 : BitVec 7) (s : State) :
    frameComplete len7 s = true ↔ extCut len7 s = false ∧ keyCut len7 s = false ∧ payCut len7 s = false := by
  unfold frameComplete payCut keyCut extCut frameEnd keyOffset
  simp only [decide_eq_true_eq, Bool.and_eq_false_iff, Bool.not_eq_false', bne_eq_false_iff_eq, decide_eq_false_iff_not,
    Bool.and_eq_true, bne_iff_ne]
  omega

/-- A complete frame reaches DISPATCH. -/
theorem readFrame_complete {len7 : BitVec 7} {s : State} (h : frameComplete len7 s = true) (d : State → Result) :
    readFrame len7 s d = d (s.atDispatch len7) := by
  obtain ⟨h1, h2, h3⟩ := (frameComplete_iff len7 s).1 h
  rw [readFrame_eq, h1, h2, h3]; rfl

/-- What DISPATCH delivers, beside the tracker it leaves. -/
theorem deliver_atDispatch (len7 : BitVec 7) (s : State) (u : LogicalUnit) (ft : Tracker) :
    deliver u ((s.atDispatch len7).setFt ft) = .next (afterFrame len7 s u ft) := by
  simp only [deliver, afterFrame, frameEnd, keyOffset, State.atDispatch, State.keyRead, State.lenRead, State.setOutcome,
    State.setFt, State.setPay, State.setKey, State.setPaylen, State.advance]

/-- What DISPATCH delivers where it leaves the tracker alone. -/
theorem deliver_atDispatch_same (len7 : BitVec 7) (s : State) (u : LogicalUnit) :
    deliver u (s.atDispatch len7) = .next (afterFrame len7 s u s.ft) := by
  simp only [deliver, afterFrame, frameEnd, keyOffset, State.atDispatch, State.keyRead, State.lenRead, State.setOutcome,
    State.setPay, State.setKey, State.setPaylen, State.advance]

@[simp] theorem atDispatch_ft (len7 : BitVec 7) (s : State) : (s.atDispatch len7).ft = s.ft := rfl
@[simp] theorem atDispatch_params (len7 : BitVec 7) (s : State) : (s.atDispatch len7).params = s.params := rfl
@[simp] theorem atDispatch_pay (len7 : BitVec 7) (s : State) : (s.atDispatch len7).pay = framePay len7 s := rfl
@[simp] theorem atDispatch_paylen_toNat (len7 : BitVec 7) (s : State) :
    (s.atDispatch len7).paylen.toNat = frameLen len7 s := paylen_toNat len7 s

/-- The start of a PARSE (40_frontend.md R90): refused outside its domain, else the header step. -/
theorem beginParse_eq (run : Instr → State → Result) (buf : Memory) (cur0 : Nat) (s : State)
    (hs : buf.size < 2 ^ 64) (hc : cur0 ≤ buf.size) :
    beginParse run buf cur0 s =
      if buf.size < cur0 + 2 then raiseIOFailure .header (s.load buf cur0)
      else run (decodeHeader (Header.ofBytes (buf.get cur0) (buf.get (cur0 + 1))))
        (((s.load buf cur0).advance 2).latch (Header.ofBytes (buf.get cur0) (buf.get (cur0 + 1)))) := by
  rw [beginParse, if_neg (by omega), if_neg (by omega), readHeader_eq]
  rfl

end Sys2Proof.Machine
end

