-- ==== Sys2Proof/Laws/Exec.lean ====
section
/-! SUPPORT. `exec` once for all received instructions: an HV row closes, a frame kind reads its frame and goes on to its
own DISPATCH rule (40_frontend.md R90, R92, R98). -/

namespace Sys2Proof.Machine

/-- LEN7 of a frame kind; none for the other instructions. -/
def kindLen7 : Instr → Option (BitVec 7)
  | .hvRsv1 .. | .hvRsv2 .. | .hvRsv3 .. | .hvNomask .. => none
  | .contN l | .textN l | .binN l | .rsvd3N l | .rsvd4N l | .rsvd5N l => some l
  | .rsvd6N l | .rsvd7N l | .closeN l | .pingN l | .pongN l | .rsvdBN l => some l
  | .rsvdCN l | .rsvdDN l | .rsvdEN l | .rsvdFN l | .contF l | .textF l => some l
  | .binF l | .rsvd3F l | .rsvd4F l | .rsvd5F l | .rsvd6F l | .rsvd7F l => some l
  | .closeF l | .pingF l | .pongF l | .rsvdBF l | .rsvdCF l | .rsvdDF l => some l
  | .rsvdEF l | .rsvdFF l => some l
  | .emitText _ | .emitBin _ | .emitReasmText _ | .emitReasmBin _ | .emitClose _ | .emitPong _ => none

/-- The DISPATCH rule of a frame kind, run on the state its frame has been read into. -/
def dispatchRule : Instr → State → Result
  | .contN _, s =>
    if s.ft.isEmpty then deliver (.close .protocolError) s
    else ftWrite (s.ft.append s.pay) s (deliver (.continuation none))
  | .textN _, s =>
    if s.ft.isEmpty then ftWrite (s.ft.startText s.pay) s (deliver (.continuation none))
    else ftWrite (s.ft.append s.pay) s (deliver (.continuation none))
  | .binN _, s => ftWrite (s.ft.resetBinary s.pay) s (deliver (.continuation none))
  | .contF _, s =>
    if s.ft.isEmpty then deliver (.close .protocolError) s
    else match s.ft.shape with
      | .text =>
        if utf8Valid (s.ft.concat ++ s.pay) then
          deliver (.continuation (some (.text (s.ft.concat ++ s.pay)))) (s.setFt s.ft.drain)
        else deliver (.close .invalidDataFormat) s
      | .binary => deliver (.continuation (some (.binary (s.ft.concat ++ s.pay)))) (s.setFt s.ft.drain)
  | .textF _, s =>
    if !s.ft.isEmpty then deliver (.close .protocolError) s
    else if utf8Valid s.pay then deliver (.text s.pay) s
    else deliver (.close .invalidDataFormat) s
  | .binF _, s => if !s.ft.isEmpty then deliver (.close .protocolError) s else deliver (.binary s.pay) s
  | .closeF _, s =>
    if s.paylen.toNat = 0 then deliver (.close .normal) s
    else if 2 ≤ s.paylen.toNat && s.paylen.toNat ≤ ctrlMax then deliver (.close (closeVerdict s.pay)) s
    else deliver (.close .protocolError) s
  | .pingF _, s =>
    if s.paylen.toNat ≤ ctrlMax then deliver (.ping s.pay) s else deliver (.close .protocolError) s
  | .pongF _, s => deliver (.pong s.pay) s
  | _, s => deliver (.close .protocolError) s

/-- A frame kind's meaning is its frame read, then its DISPATCH rule. -/
theorem exec_frameKind {i : Instr} {len7 : BitVec 7} (h : kindLen7 i = some len7) (s : State) :
    exec i s = readFrame len7 s (dispatchRule i) := by
  cases i <;> first
    | (simp only [kindLen7, Option.some.injEq] at h; subst h; rfl)
    | simp [kindLen7] at h

/-- A received instruction that is no frame kind is a header violation (R92). -/
theorem exec_headerViolation {i : Instr} (h : kindLen7 i = none) (he : isEmit i = false) (s : State) :
    exec i s = deliver (.close .protocolError) s := by
  cases i <;> first
    | rfl
    | (simp [kindLen7] at h; done)
    | simp [isEmit] at he

/-- The list of the 32 frame kinds holds exactly the instructions that have a LEN7. -/
theorem mem_frameKinds_iff (i : Instr) (len7 : BitVec 7) : i ∈ frameKinds len7 ↔ kindLen7 i = some len7 := by
  constructor
  · intro h
    simp only [frameKinds, dataKinds, controlKinds, illegalKinds, fragmentedControlKinds, reservedNonFinalKinds,
      reservedFinalKinds, List.cons_append, List.nil_append, List.mem_cons, List.not_mem_nil, or_false] at h
    rcases h with h | h | h | h | h | h | h | h | h | h | h | h | h | h | h | h | h | h | h | h | h | h | h | h | h | h |
      h | h | h | h | h | h <;> subst h <;> rfl
  · intro h
    cases i <;> simp only [kindLen7, Option.some.injEq, reduceCtorEq] at h <;> subst h <;>
      simp [frameKinds, dataKinds, controlKinds, illegalKinds, fragmentedControlKinds, reservedNonFinalKinds,
        reservedFinalKinds]

end Sys2Proof.Machine
end

