-- ==== Sys2Proof/Laws/Header.lean ====
section
/-! SUPPORT. The bits of a header (30_encoding.md R61, R62) and its number H (R77). -/

namespace Sys2Proof

/-- The bits of byte 0 (R61). -/
theorem Header.getLsbD_byte0 (h : Header) (i : Nat) :
    h.byte0.getLsbD i =
      if i < 4 then h.opcode.getLsbD i else if i < 7 then h.rsv.getLsbD (i - 4) else i = 7 && h.fin := by
  show BitVec.getLsbD (w := 1 + 3 + 4) (BitVec.ofBool h.fin ++ h.rsv ++ h.opcode) i = _
  rw [BitVec.getLsbD_append, BitVec.getLsbD_append, BitVec.getLsbD_ofBool]
  by_cases h4 : i < 4
  · simp [h4]
  · by_cases h7 : i < 7
    · simp [h4, h7, show i - 4 < 3 by omega]
    · have : (i - 4 - 3 = 0) ↔ i = 7 := by omega
      simp [h4, h7, show ¬ i - 4 < 3 by omega, this]

/-- The bits of byte 1 (R62). -/
theorem Header.getLsbD_byte1 (h : Header) (i : Nat) :
    h.byte1.getLsbD i = if i < 7 then h.len7.getLsbD i else i = 7 && h.masked := by
  show BitVec.getLsbD (w := 1 + 7) (BitVec.ofBool h.masked ++ h.len7) i = _
  rw [BitVec.getLsbD_append, BitVec.getLsbD_ofBool]
  by_cases h7 : i < 7
  · simp [h7]
  · have : (i - 7 = 0) ↔ i = 7 := by omega
    simp [h7, this]

theorem extract_eq_of_bits {w n s : Nat} {x : BitVec w} {y : BitVec n}
    (h : ∀ i < n, x.getLsbD (s + i) = y.getLsbD i) : x.extractLsb' s n = y := by
  apply BitVec.eq_of_getLsbD_eq
  intro i hi
  simp [hi, h i hi]

/-- The fields of the bytes of a header are the header. -/
@[simp] theorem Header.ofBytes_bytes (h : Header) : Header.ofBytes h.byte0 h.byte1 = h := by
  obtain ⟨fin, rsv, opcode, masked, len7⟩ := h
  simp only [Header.ofBytes, Header.getLsbD_byte0, Header.getLsbD_byte1, Header.mk.injEq]
  refine ⟨by simp, ?_, ?_, by simp, ?_⟩
  · apply extract_eq_of_bits
    intro i hi
    rw [Header.getLsbD_byte0]
    simp [show ¬ 4 + i < 4 by omega, show 4 + i < 7 by omega]
  · apply extract_eq_of_bits
    intro i hi
    rw [Header.getLsbD_byte0]
    simp [hi]
  · apply extract_eq_of_bits
    intro i hi
    rw [Header.getLsbD_byte1]
    simp [hi]

/-- Byte 0 is made of its fields. -/
@[simp] theorem Header.byte0_ofBytes (b0 b1 : Byte) : (Header.ofBytes b0 b1).byte0 = b0 := by
  apply BitVec.eq_of_getLsbD_eq
  intro i hi
  rw [Header.getLsbD_byte0]
  simp only [Header.ofBytes, BitVec.getLsbD_extractLsb']
  by_cases h4 : i < 4
  · simp [h4]
  · by_cases h7 : i < 7
    · simp [h4, h7, show i - 4 < 3 by omega, show 4 + (i - 4) = i by omega]
    · have : i = 7 := by omega
      simp [this]

/-- Byte 1 is made of its fields. -/
@[simp] theorem Header.byte1_ofBytes (b0 b1 : Byte) : (Header.ofBytes b0 b1).byte1 = b1 := by
  apply BitVec.eq_of_getLsbD_eq
  intro i hi
  rw [Header.getLsbD_byte1]
  simp only [Header.ofBytes, BitVec.getLsbD_extractLsb']
  by_cases h7 : i < 7
  · simp [h7]
  · have : i = 7 := by omega
    simp [this]

namespace Machine

/-- Two bytes as one big-endian 16-bit number (20_memory.md R43). -/
theorem beNat_pair (a b : Byte) : beNat [a, b] = (a ++ b : BitVec 16).toNat := by
  have hb := b.isLt
  rw [BitVec.toNat_append, ← Nat.shiftLeft_add_eq_or_of_lt hb, Nat.shiftLeft_eq]
  simp [beNat]

end Machine

/-- The header as one 16-bit word, byte 0 first (R77). -/
def Header.word (h : Header) : BitVec 16 := h.byte0 ++ h.byte1

theorem headerWord_eq (i : Instr) : headerWord i = (Header.ofInstr i).word.toNat := Machine.beNat_pair _ _

/-- The bits of H (R77): FIN 15, RSV 14 to 12, OPCODE 11 to 8, MASK 7, LEN7 6 to 0. -/
theorem Header.getLsbD_word (h : Header) (i : Nat) :
    h.word.getLsbD i = if i < 8 then h.byte1.getLsbD i else h.byte0.getLsbD (i - 8) := by
  show BitVec.getLsbD (w := 8 + 8) (h.byte0 ++ h.byte1) i = _
  rw [BitVec.getLsbD_append]

/-- A word under a mask, from the bits. -/
theorem word_and {h : Header} {m r : BitVec 16} (e : h.word &&& m = r) : h.word.toNat &&& m.toNat = r.toNat := by
  rw [← e, BitVec.toNat_and]

/-- Under 0xFF80 only LEN7 is dropped. -/
theorem Header.word_and_kind (h : Header) : h.word &&& 0xFF80#16 = ({ h with len7 := 0 } : Header).word := by
  have hm : ∀ i < 16, (0xFF80#16).getLsbD i = decide (7 ≤ i) := by decide
  apply BitVec.eq_of_getLsbD_eq
  intro i hi
  rw [BitVec.getLsbD_and, hm i hi, Header.getLsbD_word, Header.getLsbD_word, Header.getLsbD_byte0,
    Header.getLsbD_byte0, Header.getLsbD_byte1, Header.getLsbD_byte1]
  by_cases h7 : i < 7
  · simp [h7, show i < 8 by omega, show ¬ 7 ≤ i by omega]
  · simp [h7, show 7 ≤ i by omega]

/-- A single bit of the word. -/
theorem Header.word_and_bit (h : Header) (k : Nat) :
    h.word &&& BitVec.twoPow 16 k = if h.word.getLsbD k then BitVec.twoPow 16 k else 0 := by
  rw [BitVec.and_twoPow]; rfl

end Sys2Proof
end

