-- ==== Sys2Proof/Laws/PerInstr.lean ====
section
/-! SUPPORT. Laws stated for every instruction: its header word stands in its own row of opcode_table.json
(30_encoding.md R77). -/

namespace Sys2Proof.Laws.TableRow

/-- The header word of an instruction, under its row's mask, is its row's match (R77). -/
def Statement (i : Instr) : Prop := headerWord i &&& (tableRow i).1 = (tableRow i).2

/-- A row of mask 0xFF80 fixes all of the header but LEN7. -/
theorem kind_row {i : Instr} (h : Header) (l : BitVec 7) (r : Nat) (hi : Header.ofInstr i = { h with len7 := l })
    (hw : ({ h with len7 := 0 } : Header).word.toNat = r) (hm : tableRow i = (0xFF80, r)) : Statement i := by
  rw [Statement, headerWord_eq, hm, ← hw, hi]
  exact word_and (Header.word_and_kind _)

/-- A row that fixes one bit. -/
theorem bit_row {i : Instr} (k : Nat) (v : Bool) (h : (Header.ofInstr i).word.getLsbD k = v)
    (hm : (tableRow i).1 = (BitVec.twoPow 16 k).toNat)
    (hr : (tableRow i).2 = (if v then BitVec.twoPow 16 k else 0).toNat) : Statement i := by
  rw [Statement, headerWord_eq, hm, hr, ← h]
  exact word_and (Header.word_and_bit _ _)

@[simp] theorem rsv1_bit (x : BitVec 2) : (1#1 ++ x : BitVec 3)[2] = true := by revert x; decide

@[simp] theorem rsv2_bit (b : Bool) : (1#2 ++ BitVec.ofBool b : BitVec 3)[1] = true := by revert b; decide

theorem hvRsv1 (fin : Bool) (rsv23 : BitVec 2) (opcode : BitVec 4) (masked : Bool) (len7 : BitVec 7) :
    Statement (.hvRsv1 fin rsv23 opcode masked len7) :=
  bit_row 14 true (by rw [Header.getLsbD_word, Header.getLsbD_byte0, Header.getLsbD_byte1]; simp [Header.ofInstr]) rfl rfl

theorem hvRsv2 (fin : Bool) (rsv3 : Bool) (opcode : BitVec 4) (masked : Bool) (len7 : BitVec 7) :
    Statement (.hvRsv2 fin rsv3 opcode masked len7) :=
  bit_row 13 true (by rw [Header.getLsbD_word, Header.getLsbD_byte0, Header.getLsbD_byte1]; simp [Header.ofInstr]) rfl rfl

theorem hvRsv3 (fin : Bool) (opcode : BitVec 4) (masked : Bool) (len7 : BitVec 7) :
    Statement (.hvRsv3 fin opcode masked len7) :=
  bit_row 12 true (by rw [Header.getLsbD_word, Header.getLsbD_byte0, Header.getLsbD_byte1]; simp [Header.ofInstr]) rfl rfl

theorem hvNomask (fin : Bool) (opcode : BitVec 4) (len7 : BitVec 7) :
    Statement (.hvNomask fin opcode len7) :=
  bit_row 7 false (by rw [Header.getLsbD_word, Header.getLsbD_byte0, Header.getLsbD_byte1]; simp [Header.ofInstr]) rfl rfl

theorem contN (len7 : BitVec 7) : Statement (.contN len7) :=
  kind_row (.received false 0x0 0) _ _ rfl (by decide) rfl

theorem textN (len7 : BitVec 7) : Statement (.textN len7) :=
  kind_row (.received false 0x1 0) _ _ rfl (by decide) rfl

theorem binN (len7 : BitVec 7) : Statement (.binN len7) :=
  kind_row (.received false 0x2 0) _ _ rfl (by decide) rfl

theorem rsvd3N (len7 : BitVec 7) : Statement (.rsvd3N len7) :=
  kind_row (.received false 0x3 0) _ _ rfl (by decide) rfl

theorem rsvd4N (len7 : BitVec 7) : Statement (.rsvd4N len7) :=
  kind_row (.received false 0x4 0) _ _ rfl (by decide) rfl

theorem rsvd5N (len7 : BitVec 7) : Statement (.rsvd5N len7) :=
  kind_row (.received false 0x5 0) _ _ rfl (by decide) rfl

theorem rsvd6N (len7 : BitVec 7) : Statement (.rsvd6N len7) :=
  kind_row (.received false 0x6 0) _ _ rfl (by decide) rfl

theorem rsvd7N (len7 : BitVec 7) : Statement (.rsvd7N len7) :=
  kind_row (.received false 0x7 0) _ _ rfl (by decide) rfl

theorem closeN (len7 : BitVec 7) : Statement (.closeN len7) :=
  kind_row (.received false 0x8 0) _ _ rfl (by decide) rfl

theorem pingN (len7 : BitVec 7) : Statement (.pingN len7) :=
  kind_row (.received false 0x9 0) _ _ rfl (by decide) rfl

theorem pongN (len7 : BitVec 7) : Statement (.pongN len7) :=
  kind_row (.received false 0xA 0) _ _ rfl (by decide) rfl

theorem rsvdBN (len7 : BitVec 7) : Statement (.rsvdBN len7) :=
  kind_row (.received false 0xB 0) _ _ rfl (by decide) rfl

theorem rsvdCN (len7 : BitVec 7) : Statement (.rsvdCN len7) :=
  kind_row (.received false 0xC 0) _ _ rfl (by decide) rfl

theorem rsvdDN (len7 : BitVec 7) : Statement (.rsvdDN len7) :=
  kind_row (.received false 0xD 0) _ _ rfl (by decide) rfl

theorem rsvdEN (len7 : BitVec 7) : Statement (.rsvdEN len7) :=
  kind_row (.received false 0xE 0) _ _ rfl (by decide) rfl

theorem rsvdFN (len7 : BitVec 7) : Statement (.rsvdFN len7) :=
  kind_row (.received false 0xF 0) _ _ rfl (by decide) rfl

theorem contF (len7 : BitVec 7) : Statement (.contF len7) :=
  kind_row (.received true 0x0 0) _ _ rfl (by decide) rfl

theorem textF (len7 : BitVec 7) : Statement (.textF len7) :=
  kind_row (.received true 0x1 0) _ _ rfl (by decide) rfl

theorem binF (len7 : BitVec 7) : Statement (.binF len7) :=
  kind_row (.received true 0x2 0) _ _ rfl (by decide) rfl

theorem rsvd3F (len7 : BitVec 7) : Statement (.rsvd3F len7) :=
  kind_row (.received true 0x3 0) _ _ rfl (by decide) rfl

theorem rsvd4F (len7 : BitVec 7) : Statement (.rsvd4F len7) :=
  kind_row (.received true 0x4 0) _ _ rfl (by decide) rfl

theorem rsvd5F (len7 : BitVec 7) : Statement (.rsvd5F len7) :=
  kind_row (.received true 0x5 0) _ _ rfl (by decide) rfl

theorem rsvd6F (len7 : BitVec 7) : Statement (.rsvd6F len7) :=
  kind_row (.received true 0x6 0) _ _ rfl (by decide) rfl

theorem rsvd7F (len7 : BitVec 7) : Statement (.rsvd7F len7) :=
  kind_row (.received true 0x7 0) _ _ rfl (by decide) rfl

theorem closeF (len7 : BitVec 7) : Statement (.closeF len7) :=
  kind_row (.received true 0x8 0) _ _ rfl (by decide) rfl

theorem pingF (len7 : BitVec 7) : Statement (.pingF len7) :=
  kind_row (.received true 0x9 0) _ _ rfl (by decide) rfl

theorem pongF (len7 : BitVec 7) : Statement (.pongF len7) :=
  kind_row (.received true 0xA 0) _ _ rfl (by decide) rfl

theorem rsvdBF (len7 : BitVec 7) : Statement (.rsvdBF len7) :=
  kind_row (.received true 0xB 0) _ _ rfl (by decide) rfl

theorem rsvdCF (len7 : BitVec 7) : Statement (.rsvdCF len7) :=
  kind_row (.received true 0xC 0) _ _ rfl (by decide) rfl

theorem rsvdDF (len7 : BitVec 7) : Statement (.rsvdDF len7) :=
  kind_row (.received true 0xD 0) _ _ rfl (by decide) rfl

theorem rsvdEF (len7 : BitVec 7) : Statement (.rsvdEF len7) :=
  kind_row (.received true 0xE 0) _ _ rfl (by decide) rfl

theorem rsvdFF (len7 : BitVec 7) : Statement (.rsvdFF len7) :=
  kind_row (.received true 0xF 0) _ _ rfl (by decide) rfl

theorem emitText (s : Bytes) : Statement (.emitText s) :=
  kind_row (.emitted 0x1 0) _ _ rfl (by decide) rfl

theorem emitBin (s : Bytes) : Statement (.emitBin s) :=
  kind_row (.emitted 0x2 0) _ _ rfl (by decide) rfl

theorem emitReasmText (s : Bytes) : Statement (.emitReasmText s) :=
  kind_row (.emitted 0x1 0) _ _ rfl (by decide) rfl

theorem emitReasmBin (s : Bytes) : Statement (.emitReasmBin s) :=
  kind_row (.emitted 0x2 0) _ _ rfl (by decide) rfl

theorem emitClose (status : Status) : Statement (.emitClose status) :=
  kind_row (.emitted 0x8 0) _ _ rfl (by decide) rfl

theorem emitPong (s : Bytes) : Statement (.emitPong s) :=
  kind_row (.emitted 0xA 0) _ _ rfl (by decide) rfl

end Sys2Proof.Laws.TableRow
end

