-- ==== Sys2Proof/Laws/Utf8.lean ====
section
/-! SUPPORT. The UTF-8 check, sequence by sequence (00_scope.md R12). -/

namespace Sys2Proof.Machine

/-- A one-byte sequence at the front. -/
theorem utf8Valid_one {a : Byte} (s : Bytes) (h : utf8One a = true) : utf8Valid (a :: s) = utf8Valid s := by
  rw [utf8Valid.eq_def]; exact if_pos h

/-- A two-byte sequence at the front. -/
theorem utf8Valid_two {a b : Byte} (s : Bytes) (h1 : utf8One a = false) (h : utf8Two a b = true) :
    utf8Valid (a :: b :: s) = utf8Valid s := by
  rw [utf8Valid.eq_def]; simp only [h1, h, Bool.false_eq_true, if_false, if_true]

/-- A three-byte sequence at the front. -/
theorem utf8Valid_three {a b c : Byte} (s : Bytes) (h1 : utf8One a = false) (h2 : utf8Two a b = false)
    (h : (utf8ThreeLead a b && isTail c) = true) : utf8Valid (a :: b :: c :: s) = utf8Valid s := by
  rw [utf8Valid.eq_def]; simp only [h1, h2, h, Bool.false_eq_true, if_false, if_true]

/-- No shorter sequence at the front: a four-byte one, or none. -/
theorem utf8Valid_four {a b c : Byte} (d : Byte) (s : Bytes) (h1 : utf8One a = false) (h2 : utf8Two a b = false)
    (h3 : (utf8ThreeLead a b && isTail c) = false) :
    utf8Valid (a :: b :: c :: d :: s) = (utf8FourLead a b && isTail c && isTail d && utf8Valid s) := by
  rw [utf8Valid.eq_def]; simp only [h1, h2, h3, Bool.false_eq_true, if_false]

end Sys2Proof.Machine
end

