-- ==== Sys2Proof/Tests/Slice0.lean ====
section
/-! SUPPORT. Tests. Expected results are the spec's: the words of 30_encoding.md R70 to R75 written out bit by bit, the
vectors of 95_test_vectors.md by their ids, the examples of the rules. Then, for each statement that has hypotheses, a
state and operands that meet them. -/

namespace Sys2Proof.Machine.Tests

/-! ## Small states and what a step shows -/

/-- An Empty tracker. -/
def none' : Tracker := { shape := .text, chunks := [] }

/-- AccumulatingText["Hel"]. -/
def textHel : Tracker := { shape := .text, chunks := [[0x48, 0x65, 0x6C]] }

/-- AccumulatingBinary[01]. -/
def binary01 : Tracker := { shape := .binary, chunks := [[0x01]] }

/-- A machine asked to parse these bytes from offset 0. -/
def asked (bytes : Bytes) (ft : Tracker) : State :=
  { State.reset with ft := ft, pending := [.parse (Memory.ofBytes bytes) 0] }

/-- A machine asked to encode a unit. -/
def toEncode (u : LogicalUnit) : State := { State.reset with pending := [.encode u] }

/-- A machine that has read the two header bytes of these. -/
def afterHeader (bytes : Bytes) (ft : Tracker) : State :=
  { State.reset with ft := ft, buf := Memory.ofBytes bytes, cur := 2 }

/-- The step ends with this unit, this tracker and this cursor. -/
def returns (r : Result) (u : LogicalUnit) (ft : Tracker) (cur : Nat) : Bool :=
  match r with
  | .next t => t.outcome == some (.ok u) && t.ft == ft && t.cur == cur
  | .fault _ | .refused _ => false

/-- The step ends with this cause, the tracker as given. -/
def raises (r : Result) (c : IOCause) (ft : Tracker) : Bool :=
  match r with
  | .next t => t.outcome == some (.ioFailure c) && t.ft == ft
  | .fault _ | .refused _ => false

/-- The ENCODE ends with this result. -/
def writes (r : Result) (bytes : Option Bytes) : Bool :=
  match r with
  | .next t => t.emitted == some bytes
  | .fault _ | .refused _ => false

/-! ## Well-formedness: an ill-formed term for each check (lengthOk: a list of 2^64 bytes) -/

/-- FF is no UTF-8 sequence (95_test_vectors.md section 2.6). -/
theorem test_emitText_needs_utf8 : Instr.wellFormed (.emitText [0xFF]) = false := by decide

theorem test_emitReasmText_needs_utf8 : Instr.wellFormed (.emitReasmText [0xC0, 0x80]) = false := by decide

set_option maxRecDepth 4000 in
/-- 43_encoder.md R166. -/
theorem test_emitPong_needs_125 : Instr.wellFormed (.emitPong (List.replicate 126 0)) = false ∧
    Instr.wellFormed (.emitPong (List.replicate 125 0)) = true := by decide

/-- 43_encoder.md R161: L is a u64. -/
theorem test_length_needs_u64 (s : Bytes) (h : s.length = 2 ^ 64) :
    Instr.wellFormed (.emitBin s) = false ∧ Instr.wellFormed (.emitReasmBin s) = false ∧
    Instr.wellFormed (.emitText s) = false ∧ Instr.wellFormed (.emitReasmText s) = false := by
  simp [Instr.wellFormed, lengthOk, h]

set_option maxRecDepth 4000 in
/-- 10_state.md R30. -/
theorem test_unit_wf : LogicalUnit.wf (.text [0xFF]) = false ∧ LogicalUnit.wf (.ping (List.replicate 126 0)) = false ∧
    LogicalUnit.wf (.continuation (some (.text [0xFF]))) = false ∧ LogicalUnit.wf (.pong (List.replicate 126 0)) = true := by
  decide

/-! ## Decoding: FIN, RSV1 to RSV3, OPCODE, then MASK, LEN7, bit by bit -/

theorem test_decode_header_violations :
    decode [0b11000001, 0b10000101] = .ok (.hvRsv1 true 0 1 true 5, []) ∧
    decode [0b10100001, 0b10000101] = .ok (.hvRsv2 true false 1 true 5, []) ∧
    decode [0b10010001, 0b10000101] = .ok (.hvRsv3 true 1 true 5, []) ∧
    decode [0b10000001, 0b00000101] = .ok (.hvNomask true 1 5, []) ∧
    decode [0b11111111, 0b01111111] = .ok (.hvRsv1 true 3 15 false 127, []) := ⟨rfl, rfl, rfl, rfl, rfl⟩

theorem test_decode_data_frames :
    decode [0b00000000, 0b10000100] = .ok (.contN 4, []) ∧ decode [0b00000001, 0b10000011] = .ok (.textN 3, []) ∧
    decode [0b00000010, 0b11111111] = .ok (.binN 127, []) ∧ decode [0b10000000, 0b10000110] = .ok (.contF 6, []) ∧
    decode [0b10000001, 0b10000101] = .ok (.textF 5, []) ∧ decode [0b10000010, 0b11111110] = .ok (.binF 126, []) :=
  ⟨rfl, rfl, rfl, rfl, rfl, rfl⟩

theorem test_decode_control_frames :
    decode [0b10001000, 0b10000000] = .ok (.closeF 0, []) ∧ decode [0b10001001, 0b11111101] = .ok (.pingF 125, []) ∧
    decode [0b10001010, 0b10000000] = .ok (.pongF 0, []) ∧ decode [0b00001000, 0b10000000] = .ok (.closeN 0, []) ∧
    decode [0b00001001, 0b10000000] = .ok (.pingN 0, []) ∧ decode [0b00001010, 0b10000001] = .ok (.pongN 1, []) :=
  ⟨rfl, rfl, rfl, rfl, rfl, rfl⟩

theorem test_decode_reserved_non_final :
    decode [0b00000011, 0b10000000] = .ok (.rsvd3N 0, []) ∧ decode [0b00000100, 0b10000001] = .ok (.rsvd4N 1, []) ∧
    decode [0b00000101, 0b10000010] = .ok (.rsvd5N 2, []) ∧ decode [0b00000110, 0b10000011] = .ok (.rsvd6N 3, []) ∧
    decode [0b00000111, 0b10000100] = .ok (.rsvd7N 4, []) ∧ decode [0b00001011, 0b10000101] = .ok (.rsvdBN 5, []) ∧
    decode [0b00001100, 0b10000110] = .ok (.rsvdCN 6, []) ∧ decode [0b00001101, 0b10000111] = .ok (.rsvdDN 7, []) ∧
    decode [0b00001110, 0b10001000] = .ok (.rsvdEN 8, []) ∧ decode [0b00001111, 0b10001001] = .ok (.rsvdFN 9, []) :=
  ⟨rfl, rfl, rfl, rfl, rfl, rfl, rfl, rfl, rfl, rfl⟩

theorem test_decode_reserved_final :
    decode [0b10000011, 0b10000000] = .ok (.rsvd3F 0, []) ∧ decode [0b10000100, 0b10000001] = .ok (.rsvd4F 1, []) ∧
    decode [0b10000101, 0b10000010] = .ok (.rsvd5F 2, []) ∧ decode [0b10000110, 0b10000011] = .ok (.rsvd6F 3, []) ∧
    decode [0b10000111, 0b10000100] = .ok (.rsvd7F 4, []) ∧ decode [0b10001011, 0b10000101] = .ok (.rsvdBF 5, []) ∧
    decode [0b10001100, 0b10000110] = .ok (.rsvdCF 6, []) ∧ decode [0b10001101, 0b10000111] = .ok (.rsvdDF 7, []) ∧
    decode [0b10001110, 0b10001000] = .ok (.rsvdEF 8, []) ∧ decode [0b10001111, 0b10001001] = .ok (.rsvdFF 9, []) :=
  ⟨rfl, rfl, rfl, rfl, rfl, rfl, rfl, rfl, rfl, rfl⟩

/-- 40_frontend.md R91: fewer than two bytes are refused by name. -/
theorem test_decode_truncated :
    decode [] = .error .truncatedHeader ∧ decode [0b11000001] = .error .truncatedHeader := ⟨rfl, rfl⟩

/-- 30_encoding.md R75: the header words of emitted frames, written out; each decodes as HV.NOMASK (R77). -/
theorem test_emit_headers :
    encode (.emitText [0x48]) = [0b10000001, 0b00000001] ∧ encode (.emitBin []) = [0b10000010, 0b00000000] ∧
    encode (.emitReasmText [0x48, 0x65]) = [0b10000001, 0b00000010] ∧
    encode (.emitReasmBin [0]) = [0b10000010, 0b00000001] ∧
    encode (.emitClose .normal) = [0b10001000, 0b00000010] ∧ encode (.emitPong [1, 2]) = [0b10001010, 0b00000010] ∧
    decode [0b10000001, 0b00000001] = .ok (.hvNomask true 1 1, []) ∧
    decode [0b10000010, 0b00000000] = .ok (.hvNomask true 2 0, []) ∧
    decode [0b10001000, 0b00000010] = .ok (.hvNomask true 8 2, []) ∧
    decode [0b10001010, 0b00000010] = .ok (.hvNomask true 10 2, []) :=
  ⟨rfl, rfl, rfl, rfl, rfl, rfl, rfl, rfl, rfl, rfl⟩

/-- The table's numbers: high byte first, operand bytes of zeros (30_encoding.md R77). -/
theorem test_table_words :
    decodeTableWord 16 0x8185 = some (.textF 5) ∧ decodeTableWord 16 0x0080 = some (.contN 0) ∧
    decodeTableWord 16 0x1000 = some (.hvRsv3 false 0 false 0) ∧
    decodeTableWord 16 0x8A00 = some (.hvNomask true 10 0) := by decide

set_option maxRecDepth 20000 in
/-- A table word is what the next step runs, from reset: PING.F with 125 zero bytes under a zero key. -/
theorem test_fetch_word :
    returns (step (State.reset.withFetchWord 16 0x89FD)) (.ping (List.replicate 125 0)) none' 131 = true := by decide

/-! ## The vectors of 95_test_vectors.md -/

theorem test_H1_unmasked : returns (step (asked [0x81, 0x05] textHel)) (.close .protocolError) textHel 2 = true := by
  decide

theorem test_H2_rsv1 :
    returns (step (asked [0xC1, 0x85, 0x37, 0xFA, 0x21, 0x3D, 0x7F, 0x9F, 0x4D, 0x51, 0x58] none'))
      (.close .protocolError) none' 2 = true := by decide

theorem test_H3_rsv2 : returns (step (asked [0xA1, 0x80] none')) (.close .protocolError) none' 2 = true := by decide

theorem test_H4_rsv3 : returns (step (asked [0x91, 0x80] none')) (.close .protocolError) none' 2 = true := by decide

theorem test_H7_empty : raises (step (asked [] none')) .header none' = true := by decide

theorem test_H8_one_byte : raises (step (asked [0xC1] none')) .header none' = true := by decide

theorem test_L4_non_minimal_M :
    returns (step (asked [0x82, 0xFE, 0x00, 0x05, 0, 0, 0, 0, 0, 0, 0, 0, 0] none'))
      (.binary [0, 0, 0, 0, 0]) none' 13 = true := by decide

theorem test_L5_non_minimal_L :
    returns (step (asked [0x82, 0xFF, 0, 0, 0, 0, 0, 0, 0, 5, 0, 0, 0, 0, 0, 0, 0, 0, 0] none'))
      (.binary [0, 0, 0, 0, 0]) none' 19 = true := by decide

theorem test_L8_no_wrap :
    raises (step (asked ([0x82, 0xFF] ++ List.replicate 8 0xFF ++ List.replicate 14 0) none')) .payload none' = true := by
  decide

theorem test_T1_extlen_M : raises (step (asked [0x82, 0xFE, 0x01] none')) .extlen none' = true := by decide

theorem test_T2_extlen_L :
    raises (step (asked [0x82, 0xFF, 0, 0, 0, 0, 0, 0, 0x01] none')) .extlen none' = true := by decide

theorem test_T6_illegal_but_cut :
    raises (step (asked [0x83, 0x85, 0, 0, 0, 0, 1, 2, 3] none')) .payload none' = true := by decide

theorem test_T9_mask : raises (step (asked [0x82, 0xFE, 0, 5, 1, 2, 3] binary01)) .mask binary01 = true := by decide

theorem test_DF1_contN_empty :
    returns (step (asked [0x00, 0x81, 0, 0, 0, 0, 0x78] none')) (.close .protocolError) none' 7 = true := by decide

theorem test_DF2_contN_text :
    returns (step (asked [0x00, 0x84, 0xAA, 0xBB, 0xCC, 0xDD, 0xC6, 0xD4, 0xE0, 0xFD] textHel)) (.continuation none)
      { shape := .text, chunks := [[0x48, 0x65, 0x6C], [0x6C, 0x6F, 0x2C, 0x20]] } 10 = true := by decide

theorem test_DF4_textN_starts :
    returns (step (asked [0x01, 0x83, 1, 2, 3, 4, 0x49, 0x67, 0x6F] none')) (.continuation none) textHel 9 = true := by
  decide

theorem test_DF6_textN_on_binary :
    returns (step (asked [0x01, 0x81, 0, 0, 0, 0, 0x42] binary01)) (.continuation none)
      { shape := .binary, chunks := [[0x01], [0x42]] } 7 = true := by decide

theorem test_DF9_binN_on_text :
    returns (step (asked [0x02, 0x82, 0, 0, 0, 0, 0xDE, 0xAD] textHel)) (.continuation none)
      { shape := .binary, chunks := [[0xDE, 0xAD]] } 8 = true := by decide

theorem test_DF20_contF_split_character :
    returns (step (asked [0x80, 0x82, 0, 0, 0, 0, 0x82, 0xAC] { shape := .text, chunks := [[0xE2]] }))
      (.continuation (some (.text [0xE2, 0x82, 0xAC]))) none' 8 = true := by decide

theorem test_DF13_contF_invalid :
    returns (step (asked [0x80, 0x81, 0, 0, 0, 0, 0xFF] textHel)) (.close .invalidDataFormat) textHel 7 = true := by
  decide

theorem test_DF15_textF_hello :
    returns (step (asked [0x81, 0x85, 0x37, 0xFA, 0x21, 0x3D, 0x7F, 0x9F, 0x4D, 0x51, 0x58] none'))
      (.text [0x48, 0x65, 0x6C, 0x6C, 0x6F]) none' 11 = true := by decide

theorem test_DF14_textF_tracker_first :
    returns (step (asked [0x81, 0x81, 0, 0, 0, 0, 0xFF] textHel)) (.close .protocolError) textHel 7 = true := by decide

theorem test_DF17_binF :
    returns (step (asked [0x82, 0x83, 0xFF, 0xFF, 0xFF, 0xFF, 0xFF, 0xFE, 0xFD] none')) (.binary [0, 1, 2]) none' 9
      = true := by decide

theorem test_DF18_binF_in_message :
    returns (step (asked [0x82, 0x81, 0, 0, 0, 0, 0] binary01)) (.close .protocolError) binary01 7 = true := by decide

theorem test_S6c_closeF_bye :
    returns (step (asked [0x88, 0x85, 0x11, 0x22, 0x33, 0x44, 0x12, 0xCA, 0x51, 0x3D, 0x74] none')) (.close .normal)
      none' 11 = true := by decide

theorem test_K3_3001_closeF :
    returns (step (asked [0x88, 0x82, 0, 0, 0, 0, 0x0B, 0xB9] none')) (.close .protocolError) none' 8 = true := by
  decide

theorem test_K9_pingF :
    returns (step (asked [0x89, 0x82, 1, 2, 3, 4, 0, 0] binary01)) (.ping [1, 2]) binary01 8 = true := by decide

set_option maxRecDepth 20000 in
theorem test_K8_pingF_126 :
    returns (step (asked ([0x89, 0xFE, 0x00, 0x7E] ++ List.replicate 130 0) none')) (.close .protocolError) none' 134
      = true := by decide

theorem test_K11_pongF : returns (step (asked [0x8A, 0x81, 0, 0, 0, 0, 0xAA] none')) (.pong [0xAA]) none' 7 = true := by
  decide

theorem test_K12_to_K14_fragmented_control :
    [0x08, 0x09, 0x0A].all (fun b =>
      returns (step (asked [b, 0x80, 0, 0, 0, 0] textHel)) (.close .protocolError) textHel 6) = true := by decide

theorem test_K15_reserved_non_final :
    [0x03, 0x04, 0x05, 0x06, 0x07, 0x0B, 0x0C, 0x0D, 0x0E, 0x0F].all (fun b =>
      returns (step (asked [b, 0x80, 0, 0, 0, 0] none')) (.close .protocolError) none' 6) = true := by decide

theorem test_K16_reserved_final :
    [0x83, 0x84, 0x85, 0x86, 0x87, 0x8B, 0x8C, 0x8D, 0x8E, 0x8F].all (fun b =>
      returns (step (asked [b, 0x81, 0, 0, 0, 0, 0x7A] none')) (.close .protocolError) none' 7) = true := by decide

/-- 95_test_vectors.md section 2.8. -/
theorem test_encode_units :
    writes (step (toEncode (.text [0x48, 0x65, 0x6C, 0x6C, 0x6F]))) (some [0x81, 0x05, 0x48, 0x65, 0x6C, 0x6C, 0x6F]) = true ∧
    writes (step (toEncode (.binary [0, 1, 2]))) (some [0x82, 0x03, 0, 1, 2]) = true ∧
    writes (step (toEncode (.continuation (some (.text [0x48, 0x69]))))) (some [0x81, 0x02, 0x48, 0x69]) = true ∧
    writes (step (toEncode (.continuation (some (.binary [1, 2, 3]))))) (some [0x82, 0x03, 1, 2, 3]) = true ∧
    writes (step (toEncode (.close .invalidDataFormat))) (some [0x88, 0x02, 0x03, 0xEF]) = true ∧
    writes (step (toEncode (.ping [1, 2]))) (some [0x8A, 0x02, 1, 2]) = true ∧
    writes (step (toEncode (.pong [1, 2]))) none = true := by decide

set_option maxRecDepth 20000 in
theorem test_encode_126_bytes :
    writes (step (toEncode (.binary (List.replicate 126 0)))) (some ([0x82, 0x7E, 0x00, 0x7E] ++ List.replicate 126 0))
      = true := by decide

/-- 95_test_vectors.md S1. -/
theorem test_S1_encLen :
    encLen 0 = [0x00] ∧ encLen 125 = [0x7D] ∧ encLen 126 = [0x7E, 0x00, 0x7E] ∧ encLen 65535 = [0x7E, 0xFF, 0xFF] ∧
    encLen 65536 = [0x7F, 0, 0, 0, 0, 0, 1, 0, 0] := ⟨rfl, rfl, rfl, rfl, rfl⟩

/-- 95_test_vectors.md section 2.6. -/
theorem test_utf8 :
    [[0x7F], [0xC2, 0x80], [0xDF, 0xBF], [0xE0, 0xA0, 0x80], [0xE2, 0x82, 0xAC], [0xED, 0x9F, 0xBF],
     [0xEE, 0x80, 0x80], [0xEF, 0xBF, 0xBF]].all utf8Valid = true ∧
    [[0xC0, 0x80], [0xC1, 0xBF], [0xE0, 0x9F, 0xBF], [0xED, 0xA0, 0x80], [0xED, 0xBF, 0xBF]].all
      (fun s => !utf8Valid s) = true := by decide

/-! ## States and operands that meet the hypotheses of the statements -/

theorem returns_next {r : Result} {u : LogicalUnit} {ft : Tracker} {cur : Nat} (h : returns r u ft cur = true) :
    ∃ t, r = .next t ∧ t.outcome = some (.ok u) ∧ t.ft = ft ∧ t.cur = cur := by
  cases r with
  | next t =>
    simp only [returns, Bool.and_eq_true, beq_iff_eq] at h
    exact ⟨t, rfl, h.1.1, h.1.2, h.2⟩
  | fault f => cases h
  | refused f => cases h

theorem raises_next {r : Result} {c : IOCause} {ft : Tracker} (h : raises r c ft = true) :
    ∃ t, r = .next t ∧ t.outcome = some (.ioFailure c) ∧ t.ft = ft := by
  cases r with
  | next t =>
    simp only [raises, Bool.and_eq_true, beq_iff_eq] at h
    exact ⟨t, rfl, h.1, h.2⟩
  | fault f => cases h
  | refused f => cases h

theorem writes_next {r : Result} {bytes : Option Bytes} (h : writes r bytes = true) :
    ∃ t, r = .next t ∧ t.emitted = some bytes := by
  cases r with
  | next t =>
    simp only [writes, beq_iff_eq] at h
    exact ⟨t, rfl, h⟩
  | fault f => cases h
  | refused f => cases h

/-- A machine with one request. -/
def requests (r : Request) : State := { State.reset with pending := [r] }

/-- A machine whose last PARSE returned Text([]). -/
def parsed (rest : List Request) : State := { State.reset with outcome := some (.ok (.text [])), pending := rest }

theorem witness_ResetRequestEmptiesTheTracker :
    ∃ (s : State) (rest : List Request), s.pending = .reset :: rest ∧ s.ft.chunks ≠ [] :=
  ⟨{ requests .reset with ft := textHel }, [], rfl, by decide⟩

theorem witness_IdleMachineStaysAsItIs : ∃ s : State, s.pending = [] := ⟨State.reset, rfl⟩

/-- The header ends where BUF ends. -/
theorem witness_ParseStepRunsTheDecodedInstruction :
    ∃ (s : State) (buf : Memory) (cur0 : Nat) (rest : List Request) (i : Instr), s.pending = .parse buf cur0 :: rest ∧ buf.size < 2 ^ 64 ∧ cur0 + 2 ≤ buf.size ∧
      decode (buf.slice cur0 2) = .ok (i, []) :=
  ⟨asked [0x81, 0x85] none', Memory.ofBytes [0x81, 0x85], 0, [], .textF 5, rfl, by decide, by decide, rfl⟩

theorem witness_EncodeStepRunsTheFrameOfTheUnit :
    ∃ (s : State) (u : LogicalUnit) (rest : List Request) (i : Instr), s.pending = .encode u :: rest ∧ emitInstr u = some i :=
  ⟨toEncode (.ping [1]), .ping [1], [], .emitPong [1], rfl, rfl⟩

theorem witness_NextAndRetryAreParses :
    (∃ (s : State) (u : LogicalUnit) (rest : List Request), s.pending = .parseNext :: rest ∧ s.outcome = some (.ok u)) ∧
    (∃ (s : State) (buf : Memory) (rest : List Request), s.pending = .retry buf :: rest) :=
  ⟨⟨parsed [.parseNext], .text [], [], rfl, rfl⟩, ⟨requests (.retry Memory.empty), Memory.empty, [], rfl⟩⟩

/-- BUFLEN = 2^64; CUR0 = BUFLEN + 1; no outcome. -/
theorem witness_RequestsOutsideTheDomainAreRefused :
    (∃ (s : State) (buf : Memory) (cur0 : Nat) (rest : List Request), s.pending = .parse buf cur0 :: rest ∧ 2 ^ 64 ≤ buf.size) ∧
    (∃ (s : State) (buf : Memory) (cur0 : Nat) (rest : List Request), s.pending = .parse buf cur0 :: rest ∧ buf.size < 2 ^ 64 ∧ buf.size < cur0) ∧
    (∃ (s : State) (rest : List Request), s.pending = .parseNext :: rest ∧ ∀ u, s.outcome ≠ some (.ok u)) :=
  ⟨⟨requests (.parse { size := 2 ^ 64, cells := [] } 0), { size := 2 ^ 64, cells := [] }, 0, [], rfl, Nat.le_refl _⟩,
   ⟨requests (.parse Memory.empty 1), Memory.empty, 1, [], rfl, by decide, by decide⟩,
   ⟨requests .parseNext, [], rfl, fun _ h => by cases h⟩⟩

theorem witness_DecodeAndEncodeAgree :
    isEmit (.closeF 127) = false ∧ decode (0xFF :: 0x00 :: [0x01]) = .ok (.hvRsv1 true 3 15 false 0, [0x01]) :=
  ⟨rfl, rfl⟩

/-- H = 0x8185 is TEXT.F's; H = 0x0F80 is RSVDF.N's. -/
theorem witness_HeaderWordSelectsItsRow :
    decode [0x81, 0x85] = .ok (.textF 5, []) ∧ isEmit (.textF 0) = false ∧
    0x8185 &&& (tableRow (.textF 0)).1 = (tableRow (.textF 0)).2 ∧ (tableRow (.textF 0)).1 = 0xFF80 ∧
    decode [0x0F, 0x80] = .ok (.rsvdFN 0, []) ∧
    0x0F80 &&& (tableRow (.rsvdFN 0)).1 = (tableRow (.rsvdFN 0)).2 := ⟨rfl, rfl, rfl, rfl, rfl, rfl⟩

theorem witness_EmittedHeadersAreUnmasked :
    isEmit (.emitClose .normal) = true ∧ isEmit (.emitText (List.replicate 3 0x41)) = true := ⟨rfl, rfl⟩

/-- BUFLEN = 0, 1 and 2. -/
theorem witness_HeaderStepReadsTwoBytes :
    (asked [] none').pending = [.parse (Memory.ofBytes []) 0] ∧ (Memory.ofBytes []).size < 0 + 2 ∧
    (asked [0xC1] none').pending = [.parse (Memory.ofBytes [0xC1]) 0] ∧ (Memory.ofBytes [0xC1]).size < 0 + 2 ∧
    0 + 2 ≤ (Memory.ofBytes [0x81, 0x05]).size ∧ ∃ t, step (asked [0x81, 0x05] none') = .next t := by
  refine ⟨rfl, by decide, rfl, by decide, by decide, ?_⟩
  obtain ⟨t, h, -⟩ := returns_next (r := step (asked [0x81, 0x05] none')) (u := .close .protocolError) (ft := none')
    (cur := 2) (by decide)
  exact ⟨t, h⟩

/-- One RSV bit, and MASK clear alone, in buffers of two bytes. -/
theorem witness_HeaderViolationClosesAfterTwoBytes :
    let a := Memory.ofBytes [0x91, 0x85]
    let b := Memory.ofBytes [0x81, 0x05]
    (asked [0x91, 0x85] none').pending = [.parse a 0] ∧ a.size < 2 ^ 64 ∧ 0 + 2 ≤ a.size ∧
      (a.get 0).toNat / 16 % 8 ≠ 0 ∧ (a.get (0 + 1)).toNat / 128 ≠ 0 ∧
    (asked [0x81, 0x05] none').pending = [.parse b 0] ∧ b.size < 2 ^ 64 ∧ 0 + 2 ≤ b.size ∧
      (b.get 0).toNat / 16 % 8 = 0 ∧ (b.get (0 + 1)).toNat / 128 = 0 := by
  refine ⟨rfl, ?_, ?_, ?_, ?_, rfl, ?_, ?_, ?_, ?_⟩ <;> decide

/-- A whole binary frame of each class, past its header. -/
def frameS : State := afterHeader ([0x82, 0xFD] ++ List.replicate 129 0) none'
def frameM : State := afterHeader ([0x82, 0xFE, 0, 1] ++ List.replicate 5 0) none'
def frameL : State := afterHeader ([0x82, 0xFF, 0, 0, 0, 0, 0, 0, 0, 1] ++ List.replicate 5 0) none'

set_option maxRecDepth 20000 in
theorem witness_PayloadLengthByClass_S :
    Instr.binF 125 ∈ frameKinds 125 ∧ (∃ t, exec (.binF 125) frameS = .next t) ∧ frameComplete 125 frameS = true := by
  refine ⟨by decide, ?_, by decide⟩
  obtain ⟨t, h, -⟩ := returns_next (r := exec (.binF 125) frameS) (u := .binary (List.replicate 125 0)) (ft := none')
    (cur := 131) (by decide)
  exact ⟨t, h⟩

theorem witness_PayloadLengthByClass_M :
    Instr.binF 126 ∈ frameKinds 126 ∧ (∃ t, exec (.binF 126) frameM = .next t) ∧ frameComplete 126 frameM = true := by
  refine ⟨by decide, ?_, by decide⟩
  obtain ⟨t, h, -⟩ := returns_next (r := exec (.binF 126) frameM) (u := .binary [0]) (ft := none') (cur := 9) (by decide)
  exact ⟨t, h⟩

/-- For PayloadIsUnmaskedWithTheKey too, with a payload index in range. -/
theorem witness_PayloadLengthByClass_L :
    Instr.binF 127 ∈ frameKinds 127 ∧ frameComplete 127 frameL = true ∧
    ∃ t, exec (.binF 127) frameL = .next t ∧ 0 < t.paylen.toNat := by
  refine ⟨by decide, by decide, _, rfl, by decide⟩

/-- HEADER with 1 byte; EXTLEN with 1 of 2 and 7 of 8; MASK with 3 of 4; PAYLOAD with 4 of 5 (T1 to T5 as hypotheses). -/
theorem witness_TruncationRaisesTheCauseOfTheMissingField :
    let fits (bytes : Bytes) (ext : Nat) : Prop :=
      (asked bytes none').pending = [.parse (Memory.ofBytes bytes) 0] ∧ (Memory.ofBytes bytes).size < 2 ^ 64 ∧
      (Header.ofBytes ((Memory.ofBytes bytes).get 0) ((Memory.ofBytes bytes).get 1)).rsv = 0 ∧
      (Header.ofBytes ((Memory.ofBytes bytes).get 0) ((Memory.ofBytes bytes).get 1)).masked = true ∧
      extSize (Header.ofBytes ((Memory.ofBytes bytes).get 0) ((Memory.ofBytes bytes).get 1)).len7 = ext
    (Memory.ofBytes [0xC1]).size < 0 + 2 ∧
    (fits [0x82, 0xFE, 1] 2 ∧ 3 < 0 + 2 + 2) ∧ (fits [0x82, 0xFF, 0, 0, 0, 0, 0, 0, 1] 8 ∧ 9 < 0 + 2 + 8) ∧
    (fits [0x82, 0x80, 1, 2, 3] 0 ∧ 0 + 2 + 0 ≤ 5 ∧ 5 < 0 + 2 + 0 + 4) ∧
    (fits [0x82, 0x85, 0, 0, 0, 0, 1, 2, 3, 4] 0 ∧ 0 + 2 + 0 + 4 ≤ 10 ∧
      10 < 0 + 2 + 0 + 4 + decLen 5 ((Memory.ofBytes [0x82, 0x85, 0, 0, 0, 0, 1, 2, 3, 4]).slice (0 + 2) 0)) := by
  refine ⟨by decide, ⟨⟨rfl, ?_, ?_, ?_, ?_⟩, ?_⟩, ⟨⟨rfl, ?_, ?_, ?_, ?_⟩, ?_⟩, ⟨⟨rfl, ?_, ?_, ?_, ?_⟩, ?_⟩,
    ⟨⟨rfl, ?_, ?_, ?_, ?_⟩, ?_⟩⟩ <;> decide

/-- A frame that reaches DISPATCH and one that does not. -/
theorem witness_CursorStandsAfterTheFrame :
    (∃ t, step (asked [0x82, 0x80, 1, 2, 3, 4] none') = .next t ∧ t.outcome = some (.ok (.binary [])) ∧
      t.rsv = 0 ∧ t.masked = true) ∧
    (∃ t, step (asked [0x82, 0x00] none') = .next t ∧ t.outcome = some (.ok (.close .protocolError)) ∧
      t.masked = false) :=
  ⟨⟨_, rfl, by decide, by decide, by decide⟩, ⟨_, rfl, by decide, by decide⟩⟩

/-- Each class at its largest length; class L carrying one byte, bytes of other frames before and after. -/
theorem witness_ClientFrameIsReadBackWhole :
    LenClass.S.holds 125 = true ∧ LenClass.M.holds 65535 = true ∧ LenClass.L.holds (2 ^ 64 - 1) = true ∧
    let buf := Memory.ofBytes ([7] ++ clientFrame true 2 .L { k0 := 1, k1 := 2, k2 := 3, k3 := 4 } [9] ++ [8])
    LenClass.L.holds 1 = true ∧ buf.size < 2 ^ 64 ∧ (requests (.parse buf 1)).pending = [.parse buf 1] := by
  refine ⟨?_, ?_, ?_, ?_, ?_, rfl⟩ <;> decide

/-- A whole frame of one byte in class S, on a tracker. -/
def oneByte (ft : Tracker) : State := afterHeader [0, 0x81, 0, 0, 0, 0, 0x41] ft

/-- For ContNAppendsToAMessageInProgress, TextNStartsOrAppends, BinNRestartsTheTracker, ContFCompletesTheMessage,
TextFDeliversValidText and BinFDeliversBinary: Empty, text, binary; the capacity not reached. -/
theorem witness_data_frames :
    (frameComplete 1 (oneByte none') = true ∧ (oneByte none').ft.chunks = [] ∧
      admits (oneByte none').params { shape := .text, chunks := [framePay 1 (oneByte none')] } = true) ∧
    (frameComplete 1 (oneByte textHel) = true ∧ (oneByte textHel).ft.chunks ≠ [] ∧ (oneByte textHel).ft.shape = .text ∧
      utf8Valid ((oneByte textHel).ft.chunks.flatten ++ framePay 1 (oneByte textHel)) = true ∧
      admits (oneByte textHel).params
        { shape := .text, chunks := (oneByte textHel).ft.chunks ++ [framePay 1 (oneByte textHel)] } = true) ∧
    (frameComplete 1 (oneByte binary01) = true ∧ (oneByte binary01).ft.chunks ≠ [] ∧
      (oneByte binary01).ft.shape = .binary ∧
      admits (oneByte binary01).params { shape := .binary, chunks := [framePay 1 (oneByte binary01)] } = true) := by
  decide

/-- For ContFCompletesTheMessage's clause on invalid text. -/
theorem witness_ContF_invalid :
    let s := afterHeader [0x80, 0x81, 0, 0, 0, 0, 0xFF] textHel
    frameComplete 1 s = true ∧ s.ft.chunks ≠ [] ∧ s.ft.shape = .text ∧
    utf8Valid (s.ft.chunks.flatten ++ framePay 1 s) = false := by decide

/-- One byte too many for FT_CAP_BYTES = 3 and for FT_CAP_BYTES = 0; one chunk too many for FT_CAP_CHUNKS = 1. -/
theorem witness_CapacityOverflowIsRefused :
    let a : State := { oneByte textHel with params := { ftCapBytes := some 3, ftCapChunks := none } }
    let b : State := { oneByte none' with params := { ftCapBytes := some 0, ftCapChunks := none } }
    let c : State := { oneByte textHel with params := { ftCapBytes := none, ftCapChunks := some 1 } }
    (frameComplete 1 a = true ∧ a.ft.chunks ≠ [] ∧ admits a.params (a.ft.append (framePay 1 a)) = false) ∧
    (frameComplete 1 c = true ∧ c.ft.chunks ≠ [] ∧ admits c.params (c.ft.append (framePay 1 c)) = false) ∧
    (frameComplete 1 b = true ∧ b.ft.chunks = [] ∧
      admits b.params { shape := .text, chunks := [framePay 1 b] } = false ∧
      admits b.params { shape := .binary, chunks := [framePay 1 b] } = false) ∧
    State.reset.params = Params.default := by decide

/-- For CloseFVerdict, PingFDeliversPing, PongFDeliversPong, FragmentedControlFramesClose, ReservedNonFinalFramesClose,
ReservedFinalFramesClose and ControlFramesIgnoreTheTracker: whole frames of 0 and 2 bytes in class S, 1 in class M. -/
theorem witness_control_frames :
    frameComplete 0 (afterHeader [0x88, 0x80, 0, 0, 0, 0] none') = true ∧
    frameComplete 2 (afterHeader [0x88, 0x82, 0, 0, 0, 0, 3, 0xE8] none') = true ∧
    frameComplete 126 frameM = true ∧ Instr.pingN 1 ∈ [Instr.closeN 1, .pingN 1, .pongN 1] ∧
    Instr.closeF 1 ∈ controlKinds 1 ++ illegalKinds 1 ∧ Instr.rsvdFF 1 ∈ controlKinds 1 ++ illegalKinds 1 := by decide

set_option maxRecDepth 20000 in
/-- For CloseFVerdict, PingFDeliversPing and PongFDeliversPong at 125 and 126 bytes. -/
theorem witness_control_frames_125_and_126 :
    frameComplete 125 frameS = true ∧ frameLen 125 frameS = 125 ∧
    let s := afterHeader ([0x88, 0xFE, 0, 126] ++ List.replicate 130 0) none'
    frameComplete 126 s = true ∧ frameLen 126 s = 126 := by decide

theorem witness_EmitPongReply : (List.replicate 125 (0 : Byte)).length ≤ 125 ∧ 125 < (List.replicate 126 (0 : Byte)).length := by
  simp

theorem witness_EncodeGivesNoBytesForFragmentsAndPongs :
    (toEncode (.continuation none)).pending = [.encode (.continuation none)] ∧
    (toEncode (.pong [])).pending = [.encode (.pong [])] := ⟨rfl, rfl⟩

theorem witness_EncodeNeverFails :
    (∀ i, emitInstr (.text [0x41]) = some i → i.wellFormed = true) ∧
    (∀ i, emitInstr (.pong []) = some i → i.wellFormed = true) ∧
    (toEncode (.text [0x41])).pending = [.encode (.text [0x41])] :=
  ⟨(fun i h => by cases h; decide), (fun i h => by cases h), rfl⟩

theorem witness_EmittedFrameBeginsWithItsHeaderWord :
    isEmit (.emitText [0x41]) = true ∧ Instr.wellFormed (.emitText [0x41]) = true ∧
    ∃ t, exec (.emitText [0x41]) State.reset = .next t ∧ t.emitted = some (some [0x81, 0x01, 0x41]) :=
  ⟨rfl, by decide, writes_next (by decide)⟩

/-- The ends of the three classes of EncLenByClass and DecLenInvertsEncLen. -/
theorem witness_EncLen_classes :
    0 ≤ 125 ∧ 125 < 126 ∧ 126 ≤ 65535 ∧ 65535 < 65536 ∧ 65536 < 2 ^ 64 ∧ 2 ^ 64 - 1 < 2 ^ 64 := by decide

theorem witness_MaskIsSelfInverse : [(1 : Byte), 2, 3, 4, 5][4]? = some 5 := rfl

/-- An encoded ping, fed back as it is and masked. -/
theorem witness_EchoedFrameDecodes :
    let bytes : Bytes := [0x8A, 0x02, 1, 2]
    let key : Key := { k0 := 0xA1, k1 := 0xB2, k2 := 0xC3, k3 := 0xD4 }
    emitInstr (.ping [1, 2]) = some (.emitPong [1, 2]) ∧ Instr.wellFormed (.emitPong [1, 2]) = true ∧
    echoUnit (.ping [1, 2]) = some (.pong [1, 2]) ∧
    (∀ s : State, exec (.emitPong [1, 2]) s = .next { s with emitted := some (some bytes) }) ∧
    bytes.length + 4 < 2 ^ 64 ∧ (asked bytes none').ft.chunks = [] ∧
    (asked bytes none').pending = [.parse (Memory.ofBytes bytes) 0] ∧
    (asked (echoFrame key bytes) none').pending = [.parse (Memory.ofBytes (echoFrame key bytes)) 0] ∧
    echoFrame key bytes = [0x8A, 0x82, 0xA1, 0xB2, 0xC3, 0xD4, 0xA0, 0xB0] :=
  ⟨rfl, rfl, rfl, fun _ => rfl, by decide, rfl, rfl, rfl, by decide⟩

/-- For NoInstructionWritesBuf: an instruction that ends in a next state. -/
theorem witness_next_state :
    isEmit (.textF 1) = false ∧
    ∃ t, exec (.textF 1) (oneByte none') = .next t ∧ t.outcome = some (.ok (.text [0x41])) := by
  refine ⟨rfl, ?_⟩
  obtain ⟨t, h, ho, -⟩ := returns_next (r := exec (.textF 1) (oneByte none')) (u := .text [0x41]) (ft := none')
    (cur := 7) (by decide)
  exact ⟨t, h, ho⟩

/-- From the state after reset, asked for a frame, a step gives a next state. -/
theorem witness_StepKeepsTheInvariant :
    MachineInv (asked [0x82, 0x00] none') ∧ ∃ t, step (asked [0x82, 0x00] none') = .next t := by
  refine ⟨⟨by decide, by decide, by decide, by decide, fun r h => (by cases h), ?_⟩, ?_⟩
  · intro r h
    simp only [asked, List.mem_singleton] at h
    subst h
    decide
  · obtain ⟨t, h, -⟩ := returns_next (r := step (asked [0x82, 0x00] none')) (u := .close .protocolError) (ft := none')
      (cur := 2) (by decide)
    exact ⟨t, h⟩

/-- Two trackers with other chunk boundaries, and two Empty ones of other shapes. -/
theorem witness_TrackerViewDecidesEveryStep :
    (asked [0x80, 0x80, 0, 0, 0, 0] textHel).params.ftCapChunks = none ∧
    (asked [0x80, 0x80, 0, 0, 0, 0] textHel).sameView
      (asked [0x80, 0x80, 0, 0, 0, 0] { shape := .text, chunks := [[0x48], [], [0x65, 0x6C]] }) ∧
    none'.sameView { shape := .binary, chunks := [] } :=
  ⟨rfl, ⟨rfl, by decide, by decide, fun _ => rfl⟩, rfl, rfl, fun h => by cases h⟩

/-- Leaving Empty and coming back to it. -/
theorem witness_OnlyTextNAndBinNLeaveEmpty :
    (∃ t, exec (.binN 1) (oneByte none') = .next t ∧ (oneByte none').ft.isEmpty = true ∧ t.ft.isEmpty = false) ∧
    (∃ t, exec (.contF 1) (oneByte textHel) = .next t ∧ (oneByte textHel).ft.isEmpty = false ∧ t.ft.isEmpty = true) := by
  obtain ⟨t, h, -, hf, -⟩ := returns_next (r := exec (.binN 1) (oneByte none')) (u := .continuation none)
    (ft := { shape := .binary, chunks := [[0x41]] }) (cur := 7) (by decide)
  obtain ⟨t', h', -, hf', -⟩ := returns_next (r := exec (.contF 1) (oneByte textHel))
    (u := .continuation (some (.text [0x48, 0x65, 0x6C, 0x41]))) (ft := none') (cur := 7) (by decide)
  exact ⟨⟨t, h, by decide, by rw [hf]; decide⟩, ⟨t', h', by decide, by rw [hf']; decide⟩⟩

theorem witness_IOFailureLeavesTheTracker :
    isEmit (.textF 2) = false ∧ (oneByte textHel).cur0 ≤ (oneByte textHel).buf.size ∧
    ∃ t, exec (.textF 2) (oneByte textHel) = .next t ∧ t.outcome = some (.ioFailure .payload) := by
  refine ⟨rfl, by decide, ?_⟩
  obtain ⟨t, h, ho, -⟩ := raises_next (r := exec (.textF 2) (oneByte textHel)) (c := .payload) (ft := textHel) (by decide)
  exact ⟨t, h, ho⟩

/-- For CloseLeavesTheTracker, CausesOfProtocolError, CausesOfInvalidDataFormat and CausesOfNormalClose. -/
theorem witness_closes :
    (∃ t, exec (.closeF 1) (oneByte textHel) = .next t ∧ t.outcome = some (.ok (.close .protocolError))) ∧
    (∃ t, exec (.textF 1) (afterHeader [0x81, 0x81, 0, 0, 0, 0, 0xFF] none') = .next t ∧
      t.outcome = some (.ok (.close .invalidDataFormat))) ∧
    (∃ t, exec (.closeF 0) (oneByte textHel) = .next t ∧ t.outcome = some (.ok (.close .normal))) := by
  obtain ⟨t, h, ho, -⟩ := returns_next (r := exec (.closeF 1) (oneByte textHel)) (u := .close .protocolError)
    (ft := textHel) (cur := 7) (by decide)
  obtain ⟨t', h', ho', -⟩ := returns_next (r := exec (.textF 1) (afterHeader [0x81, 0x81, 0, 0, 0, 0, 0xFF] none'))
    (u := .close .invalidDataFormat) (ft := none') (cur := 7) (by decide)
  obtain ⟨t'', h'', ho'', -⟩ := returns_next (r := exec (.closeF 0) (oneByte textHel)) (u := .close .normal)
    (ft := textHel) (cur := 6) (by decide)
  exact ⟨⟨t, h, ho⟩, ⟨t', h', ho'⟩, ⟨t'', h'', ho''⟩⟩

/-- CUR0 = BUFLEN is in PARSE's domain. -/
theorem witness_ParseIsTotal :
    ∃ (s : State) (buf : Memory) (cur0 : Nat) (rest : List Request), s.pending = .parse buf cur0 :: rest ∧ buf.size < 2 ^ 64 ∧ cur0 ≤ buf.size ∧ cur0 = buf.size ∧
      s.params = Params.default :=
  ⟨asked [] none', Memory.ofBytes [], 0, [], rfl, by decide, by decide, rfl, rfl⟩

theorem witness_OnlyNamedRefusals :
    exec (.binN 1) { oneByte none' with params := { ftCapBytes := some 0, ftCapChunks := none } } = .refused .ftCapacity ∧
    exec (.emitPong (List.replicate 126 0)) State.reset = .refused .pingTooLong := by
  refine ⟨rfl, ?_⟩
  simp [exec, execEmitPong]

/-- 95_test_vectors.md P6: a frame cut short, then the whole frame, or the same bytes again. -/
theorem witness_RetryLeavesNoTraceOfTheFailure :
    let cut := Memory.ofBytes [0x81, 0x85, 0x37, 0xFA, 0x21, 0x3D, 0x7F, 0x9F, 0x4D]
    let whole := Memory.ofBytes [0x81, 0x85, 0x37, 0xFA, 0x21, 0x3D, 0x7F, 0x9F, 0x4D, 0x51, 0x58]
    ∀ again ∈ [whole, cut], ∃ s t : State, s.pending = [.parse cut 0, .retry again] ∧ step s = .next t ∧
      t.outcome = some (.ioFailure .payload) := by
  intro cut whole again h
  have hs : raises (step { State.reset with pending := [.parse cut 0, .retry again] }) .payload none' = true := by
    simp only [List.mem_cons, List.not_mem_nil, or_false] at h
    rcases h with rfl | rfl <;> decide
  obtain ⟨t, ht, ho, -⟩ := raises_next hs
  exact ⟨_, t, rfl, ht, ho⟩

end Sys2Proof.Machine.Tests
end

section
/-! The statements of 10_state.md: the state after reset (R35), and KEY and PAY of a complete frame (R24, R25). -/

namespace Sys2Proof.Machine

/-- A result that, where it has a next state, only delivers a unit from `s`, with some tracker. -/
def Result.deliversFrom (s : State) (r : Result) : Prop :=
  ∀ t, r = .next t → ∃ u ft, t = (s.setFt ft).setOutcome (.ok u)

theorem deliver_setFt_deliversFrom (u : LogicalUnit) (s : State) (ft : Tracker) :
    Result.deliversFrom s (deliver u (s.setFt ft)) := by
  intro t h
  cases h
  exact ⟨u, ft, rfl⟩

theorem deliver_deliversFrom (u : LogicalUnit) (s : State) : Result.deliversFrom s (deliver u s) :=
  deliver_setFt_deliversFrom u s s.ft

theorem ftWrite_deliversFrom (ft : Tracker) (s : State) (u : LogicalUnit) :
    Result.deliversFrom s (ftWrite ft s (deliver u)) := by
  rw [ftWrite_eq]
  split
  · exact deliver_setFt_deliversFrom u s ft
  · exact fun _ h => nomatch h

theorem ite_deliversFrom {c : Prop} [Decidable c] {s : State} {r r' : Result} (h : Result.deliversFrom s r)
    (h' : Result.deliversFrom s r') : Result.deliversFrom s (if c then r else r') := by
  split
  · exact h
  · exact h'

/-- A DISPATCH rule writes at most FT and the outcome, whichever of its branches it takes (41_data_frames.md R110,
42_control_frames.md R137). -/
theorem dispatchRule_deliversFrom (i : Instr) (s : State) : Result.deliversFrom s (dispatchRule i s) := by
  have hd (u : LogicalUnit) := deliver_deliversFrom u s
  have hw (ft : Tracker) (u : LogicalUnit) := ftWrite_deliversFrom ft s u
  cases i <;> simp only [dispatchRule]
  case contN => exact ite_deliversFrom (hd _) (hw _ _)
  case textN => exact ite_deliversFrom (hw _ _) (hw _ _)
  case binN => exact hw _ _
  case contF =>
    refine ite_deliversFrom (hd _) ?_
    cases s.ft.shape with
    | text => exact ite_deliversFrom (deliver_setFt_deliversFrom _ s _) (hd _)
    | binary => exact deliver_setFt_deliversFrom _ s _
  case textF | closeF => exact ite_deliversFrom (hd _) (ite_deliversFrom (hd _) (hd _))
  case binF | pingF => exact ite_deliversFrom (hd _) (hd _)
  all_goals exact hd _

/-- What a frame kind can do on a complete frame: every next state is `afterFrame`, with some unit and some tracker
(40_frontend.md R90). -/
theorem exec_complete_next {i : Instr} {len7 : BitVec 7} {s t : State} (hi : i ∈ frameKinds len7)
    (hc : frameComplete len7 s = true) (h : exec i s = .next t) : ∃ u ft, t = afterFrame len7 s u ft := by
  rw [exec_frameKind ((mem_frameKinds_iff i len7).1 hi), readFrame_complete hc] at h
  obtain ⟨u, ft, rfl⟩ := dispatchRule_deliversFrom i _ t h
  have hd := deliver_atDispatch len7 s u ft
  exact ⟨u, ft, Host.Outcome.next.inj hd⟩

/-- EXT by the value of LEN7 (30_encoding.md R63, R66). -/
theorem extSize_eq (len7 : BitVec 7) :
    extSize len7 = if len7.toNat ≤ 125 then 0 else if len7.toNat = 126 then 2 else 8 := by
  unfold extSize LenClass.ofLen7
  by_cases hS : len7.toNat ≤ 125
  · rw [if_pos hS, if_pos hS]; rfl
  · rw [if_neg hS, if_neg hS]
    by_cases hM : len7.toNat = 126
    · rw [if_pos hM, if_pos hM]; rfl
    · rw [if_neg hM, if_neg hM]; rfl

/-- KEY[j mod 4] is the byte of BUF at that index after the length field (30_encoding.md R65). -/
theorem frameKey_byte (len7 : BitVec 7) (s : State) (j : Nat) :
    (frameKey len7 s).byte j = s.buf.get (keyOffset len7 s + j % 4) := by
  have hj : j % 4 < 4 := Nat.mod_lt j (by decide)
  unfold Key.byte
  generalize j % 4 = r at hj ⊢
  match r, hj with
  | 0, _ | 1, _ | 2, _ | 3, _ => rfl

@[simp] theorem length_framePay (len7 : BitVec 7) (s : State) : (framePay len7 s).length = frameLen len7 s := by
  simp [framePay]

/-- PAY[j] for a payload index (10_state.md R25). -/
theorem getElem?_framePay {len7 : BitVec 7} {s : State} {j : Nat} (hj : j < frameLen len7 s) :
    (framePay len7 s)[j]? =
      some (s.buf.get (keyOffset len7 s + 4 + j) ^^^ s.buf.get (keyOffset len7 s + j % 4)) := by
  rw [framePay, List.getElem?_map, List.getElem?_range hj, Option.map_some, frameKey_byte]

/-- Settles O17: on a complete frame every next state is `afterFrame`, whose KEY and PAY are the frame's. -/
theorem payloadIsUnmaskedWithTheKey : Obligations.PayloadIsUnmaskedWithTheKey := by
  unfold Obligations.PayloadIsUnmaskedWithTheKey
  intro len7 s i hi t ht hc
  obtain ⟨u, ft, rfl⟩ := exec_complete_next hi hc ht
  have hp : (afterFrame len7 s u ft).paylen.toNat = frameLen len7 s := paylen_toNat len7 s
  rw [← extSize_eq, hp]
  exact ⟨rfl, length_framePay len7 s, fun j hj => getElem?_framePay hj⟩

/-- Settles O1: both fields of `State.reset` are as R35 says, by definition. -/
theorem resetIsEmptyWithNoOutcome : Obligations.ResetIsEmptyWithNoOutcome :=
  ⟨rfl, rfl⟩

end Sys2Proof.Machine
end

section
/-! The statement of 20_memory.md: no instruction writes BUF (R54). It rests on what an instruction can leave as its
next state: the frame cut short at one of its three fields, the frame delivered, a header violation, or an ENCODE. -/

namespace Sys2Proof.Machine

/-- What reading a frame can come to (60_exceptions.md R185): the IOFailure of the first field that is cut short, or
DISPATCH on the complete frame. -/
theorem readFrame_cases (len7 : BitVec 7) (s : State) (d : State → Result) :
    (extCut len7 s = true ∧ readFrame len7 s d = raiseIOFailure .extlen s) ∨
    (keyCut len7 s = true ∧ readFrame len7 s d = raiseIOFailure .mask (s.lenRead len7)) ∨
    (payCut len7 s = true ∧ readFrame len7 s d = raiseIOFailure .payload (s.keyRead len7)) ∨
    (frameComplete len7 s = true ∧ readFrame len7 s d = d (s.atDispatch len7)) := by
  rw [readFrame_eq, frameComplete_iff]
  cases extCut len7 s
  case true => simp
  cases keyCut len7 s
  case true => simp
  cases payCut len7 s <;> simp

/-- Every next state of an emitted frame is the state before it, with the result of the ENCODE (43_encoder.md R160). -/
theorem exec_emit_next {i : Instr} {s t : State} (he : isEmit i = true) (h : exec i s = .next t) :
    ∃ r, t = s.setEmitted r := by
  cases i <;> simp only [isEmit, Bool.false_eq_true] at he
  case emitPong bs =>
    simp only [exec, execEmitPong] at h
    split at h
    · exact ⟨_, (Host.Outcome.next.inj h).symm⟩
    · cases h
  all_goals exact ⟨_, (Host.Outcome.next.inj h).symm⟩

/-- What the host gives the machine is the same in both states: BUF, CUR0, the parameters and the requests. -/
structure State.SameInput (s t : State) : Prop where
  buf : t.buf = s.buf
  cur0 : t.cur0 = s.cur0
  params : t.params = s.params
  pending : t.pending = s.pending

/-- Reading a frame and its DISPATCH rule write the field registers, CUR, FT and the outcome only. -/
theorem exec_frameKind_sameInput {i : Instr} {len7 : BitVec 7} {s t : State} (hk : kindLen7 i = some len7)
    (h : exec i s = .next t) : s.SameInput t := by
  rcases readFrame_cases len7 s (dispatchRule i) with ⟨-, hr⟩ | ⟨-, hr⟩ | ⟨-, hr⟩ | ⟨hc, -⟩
  case inr.inr.inr =>
    obtain ⟨u, ft, rfl⟩ := exec_complete_next ((mem_frameKinds_iff i len7).2 hk) hc h
    exact ⟨rfl, rfl, rfl, rfl⟩
  all_goals
    rw [exec_frameKind hk, hr] at h
    cases h
    exact ⟨rfl, rfl, rfl, rfl⟩

/-- No instruction writes what the host gives the machine (20_memory.md R54). -/
theorem exec_sameInput {i : Instr} {s t : State} (h : exec i s = .next t) : s.SameInput t := by
  cases hk : kindLen7 i with
  | some len7 => exact exec_frameKind_sameInput hk h
  | none =>
    cases he : isEmit i with
    | true =>
      obtain ⟨r, rfl⟩ := exec_emit_next he h
      exact ⟨rfl, rfl, rfl, rfl⟩
    | false =>
      rw [exec_headerViolation hk he] at h
      cases h
      exact ⟨rfl, rfl, rfl, rfl⟩

/-- Settles O47: every next state has the same BUF, hence the same bytes of BUF, and the same host input. -/
theorem noInstructionWritesBuf : Obligations.NoInstructionWritesBuf := by
  unfold Obligations.NoInstructionWritesBuf
  intro i s t h
  obtain ⟨hbuf, hcur0, hparams, hpending⟩ := exec_sameInput h
  exact ⟨hbuf, fun a => by rw [hbuf], hcur0, hparams, hpending⟩

end Sys2Proof.Machine
end

section
/-! A statement of 30_encoding.md: PAYLEN by length class (R63). -/

namespace Sys2Proof.Machine

/-- A big-endian number read from BUF, split at its most significant byte (20_memory.md R43). -/
theorem beNat_slice_succ (m : Memory) (a n : Nat) :
    beNat (m.slice a (n + 1)) = (m.get a).toNat * 256 ^ n + beNat (m.slice (a + 1) n) := by
  rw [Memory.slice, beNat_cons, Memory.length_slice]

theorem beNat_slice_zero (m : Memory) (a : Nat) : beNat (m.slice a 0) = 0 := rfl

/-- Class S: LEN7 is the length itself (R63). -/
theorem frameLen_of_le {len7 : BitVec 7} (h : len7.toNat ≤ 125) (s : State) : frameLen len7 s = len7.toNat := by
  have hc : LenClass.ofLen7 len7 = .S := if_pos h
  rw [frameLen, decLen, hc]

/-- Class M: the length is the two bytes after the header (R63). -/
theorem frameLen_of_eq_126 {len7 : BitVec 7} (h : len7.toNat = 126) (s : State) :
    frameLen len7 s = beNat (s.buf.slice s.cur 2) := by
  have hc : LenClass.ofLen7 len7 = .M := by simp [LenClass.ofLen7, h]
  rw [frameLen, decLen, extSize, hc, LenClass.extBytes]

/-- Class L: the length is the eight bytes after the header (R63). -/
theorem frameLen_of_eq_127 {len7 : BitVec 7} (h : len7.toNat = 127) (s : State) :
    frameLen len7 s = beNat (s.buf.slice s.cur 8) := by
  have hc : LenClass.ofLen7 len7 = .L := by simp [LenClass.ofLen7, h]
  rw [frameLen, decLen, extSize, hc, LenClass.extBytes]

/-- Settles O16: on a complete frame every next state is `afterFrame`, whose PAYLEN is the frame's length; class by class
that is LEN7, or the bytes of BUF after the header as one big-endian number. -/
theorem payloadLengthByClass : Obligations.PayloadLengthByClass := by
  unfold Obligations.PayloadLengthByClass
  intro len7 s i hi t ht hc
  obtain ⟨u, ft, rfl⟩ := exec_complete_next hi hc ht
  have hp : (afterFrame len7 s u ft).paylen.toNat = frameLen len7 s := paylen_toNat len7 s
  rw [hp]
  refine ⟨fun hS => frameLen_of_le hS s, fun hM => ?_, fun hL => ?_⟩
  · rw [frameLen_of_eq_126 hM]
    simp only [beNat_slice_succ, beNat_slice_zero]
    omega
  · rw [frameLen_of_eq_127 hL]
    simp only [beNat_slice_succ, beNat_slice_zero, Nat.add_assoc, Nat.reduceAdd]
    omega

end Sys2Proof.Machine
end

section
/-! A statement of 40_frontend.md: the header step (R91). The five fields are written from the two bytes before the
selected instruction runs, and no instruction writes them again. -/

namespace Sys2Proof

/-- Bit 7 of a byte, FIN or MASK, as a quotient (30_encoding.md R61, R62). -/
theorem getLsbD_seven_eq_div (b : Byte) : b.getLsbD 7 = decide (b.toNat / 128 = 1) := by
  have hb : b.toNat / 128 % 2 = b.toNat / 128 := Nat.mod_eq_of_lt (by omega)
  rw [BitVec.getLsbD, Nat.testBit_eq_decide_div_mod_eq, show 2 ^ 7 = 128 from rfl, hb]

/-- Consecutive bits of a byte as a number: the quotient that drops the bits below them, modulo their range. -/
theorem toNat_extract_eq_div_mod (b : Byte) (start len : Nat) :
    (b.extractLsb' start len).toNat = b.toNat / 2 ^ start % 2 ^ len := by
  rw [BitVec.extractLsb'_toNat, Nat.shiftRight_eq_div_pow]

/-- The arithmetic of R61 and R62: every field of a header from its two bytes. -/
theorem Header.ofBytes_arithmetic (b0 b1 : Byte) :
    (Header.ofBytes b0 b1).fin = decide (b0.toNat / 128 = 1) ∧
    (Header.ofBytes b0 b1).rsv.toNat = b0.toNat / 16 % 8 ∧
    (Header.ofBytes b0 b1).opcode.toNat = b0.toNat % 16 ∧
    (Header.ofBytes b0 b1).masked = decide (b1.toNat / 128 = 1) ∧
    (Header.ofBytes b0 b1).len7.toNat = b1.toNat % 128 := by
  refine ⟨getLsbD_seven_eq_div b0, toNat_extract_eq_div_mod b0 4 3, ?_, getLsbD_seven_eq_div b1, ?_⟩
  · rw [← Nat.div_one b0.toNat]
    exact toNat_extract_eq_div_mod b0 0 4
  · rw [← Nat.div_one b1.toNat]
    exact toNat_extract_eq_div_mod b1 0 7

namespace Machine

/-- A step that serves a PARSE in its domain (40_frontend.md R90, R91): IOFailure(HEADER) below two bytes, else the
selected instruction runs with the header latched and two bytes consumed. -/
theorem step_parse {s : State} {buf : Memory} {cur0 : Nat} {rest : List Request}
    (hp : s.pending = .parse buf cur0 :: rest) (hs : buf.size < 2 ^ 64) (hc : cur0 ≤ buf.size) :
    step s =
      if buf.size < cur0 + 2 then raiseIOFailure .header ((s.setPending rest).load buf cur0)
      else exec (decodeHeader (Header.ofBytes (buf.get cur0) (buf.get (cur0 + 1))))
        ((((s.setPending rest).load buf cur0).advance 2).latch
          (Header.ofBytes (buf.get cur0) (buf.get (cur0 + 1)))) := by
  rw [step, serve, hp]
  exact beginParse_eq exec buf cur0 (s.setPending rest) hs hc

/-- What an instruction can leave as its next state: an IOFailure at one of the frame's three fields, the frame
delivered, a header violation, or an ENCODE. -/
theorem exec_next_cases {i : Instr} {s t : State} (h : exec i s = .next t) :
    (∃ len7, kindLen7 i = some len7 ∧
      (extCut len7 s = true ∧ raiseIOFailure .extlen s = .next t ∨
       keyCut len7 s = true ∧ raiseIOFailure .mask (s.lenRead len7) = .next t ∨
       payCut len7 s = true ∧ raiseIOFailure .payload (s.keyRead len7) = .next t ∨
       frameComplete len7 s = true ∧ ∃ u ft, t = afterFrame len7 s u ft)) ∨
    (kindLen7 i = none ∧ isEmit i = false ∧ t = s.setOutcome (.ok (.close .protocolError))) ∨
    (isEmit i = true ∧ ∃ r, t = s.setEmitted r) := by
  cases hk : kindLen7 i with
  | some len7 =>
    refine .inl ⟨len7, rfl, ?_⟩
    have hr := exec_frameKind hk s
    rw [h] at hr
    rcases readFrame_cases len7 s (dispatchRule i) with ⟨hc, e⟩ | ⟨hc, e⟩ | ⟨hc, e⟩ | ⟨hc, -⟩
    · exact .inl ⟨hc, (hr.trans e).symm⟩
    · exact .inr (.inl ⟨hc, (hr.trans e).symm⟩)
    · exact .inr (.inr (.inl ⟨hc, (hr.trans e).symm⟩))
    · exact .inr (.inr (.inr ⟨hc, exec_complete_next ((mem_frameKinds_iff i len7).2 hk) hc h⟩))
  | none =>
    cases he : isEmit i with
    | true => exact .inr (.inr ⟨rfl, exec_emit_next he h⟩)
    | false =>
      rw [exec_headerViolation hk he] at h
      exact .inr (.inl ⟨rfl, rfl, (Host.Outcome.next.inj h).symm⟩)

/-- The header the field registers hold (10_state.md R22). -/
def State.header (s : State) : Header :=
  { fin := s.fin, rsv := s.rsv, opcode := s.opcode, masked := s.masked, len7 := s.len7 }

@[simp] theorem State.latch_header (s : State) (h : Header) : (s.latch h).header = h := rfl

/-- No instruction writes the header registers. -/
theorem exec_header {i : Instr} {s t : State} (h : exec i s = .next t) : t.header = s.header := by
  rcases exec_next_cases h with ⟨len7, -, ⟨-, e⟩ | ⟨-, e⟩ | ⟨-, e⟩ | ⟨-, u, ft, rfl⟩⟩ | ⟨-, -, rfl⟩ | ⟨-, r, rfl⟩
  case inr.inl | inr.inr | inl.inr.inr.inr => rfl
  all_goals
    cases e
    rfl

/-- Settles O13: the step raises IOFailure(HEADER) or runs an instruction on the latched header, which is still there in
the next state; its fields are those of the two bytes. -/
theorem headerStepReadsTwoBytes : Obligations.HeaderStepReadsTwoBytes := by
  unfold Obligations.HeaderStepReadsTwoBytes
  intro s buf cur0 rest hp hs hc
  refine ⟨fun hshort => ?_, fun henough t ht => ?_⟩
  · rw [step_parse hp hs hc, if_pos hshort]
    exact ⟨_, raiseIOFailure_eq _ _, rfl⟩
  · rw [step_parse hp hs hc, if_neg (by omega)] at ht
    have hlatched : t.header = Header.ofBytes (buf.get cur0) (buf.get (cur0 + 1)) := by
      rw [exec_header ht, State.latch_header]
    have hfields := Header.ofBytes_arithmetic (buf.get cur0) (buf.get (cur0 + 1))
    rw [← hlatched] at hfields
    exact hfields

end Machine
end Sys2Proof
end

section
/-! Statements of 41_data_frames.md: CONT.N (R111), BIN.N (R113), TEXT.F (R115) and BIN.F (R116) on a complete frame,
each the instruction's own DISPATCH rule on the state its frame has been read into. -/

namespace Sys2Proof.Machine

/-- The predicate FT.empty in the words of the statements: FT holds no chunk (10_state.md R26). -/
@[simp] theorem Tracker.isEmpty_iff (t : Tracker) : t.isEmpty = true ↔ t.chunks = [] :=
  List.isEmpty_iff

@[simp] theorem Tracker.isEmpty_eq_false_iff (t : Tracker) : t.isEmpty = false ↔ t.chunks ≠ [] := by
  rw [ne_eq, ← t.isEmpty_iff, Bool.not_eq_true]

/-- On a complete frame a frame kind's meaning is its DISPATCH rule (40_frontend.md R90). -/
theorem exec_complete {i : Instr} {len7 : BitVec 7} {s : State} (hk : kindLen7 i = some len7)
    (hc : frameComplete len7 s = true) : exec i s = dispatchRule i (s.atDispatch len7) := by
  rw [exec_frameKind hk, readFrame_complete hc]

/-- What DISPATCH delivers after a write of FT within the capacity (20_memory.md R49). -/
theorem ftWrite_atDispatch {len7 : BitVec 7} {s : State} {ft : Tracker} (ha : admits s.params ft = true)
    (u : LogicalUnit) : ftWrite ft (s.atDispatch len7) (deliver u) = .next (afterFrame len7 s u ft) := by
  rw [ftWrite_eq, atDispatch_params, if_pos ha, deliver_atDispatch]

/-- Settles O21: an Empty tracker is a violation; any other is written, within the capacity, with the payload
appended. -/
theorem contNAppendsToAMessageInProgress : Obligations.ContNAppendsToAMessageInProgress := by
  unfold Obligations.ContNAppendsToAMessageInProgress
  intro len7 s hc
  rw [exec_complete rfl hc, dispatchRule, atDispatch_ft, atDispatch_pay]
  refine ⟨fun hempty => ?_, fun hopen => ?_⟩
  · rw [if_pos (s.ft.isEmpty_iff.2 hempty), deliver_atDispatch_same]
  · intro ft ha
    rw [if_neg (mt s.ft.isEmpty_iff.1 hopen)]
    exact ftWrite_atDispatch ha _

/-- Settles O23: the rule writes the tracker without looking at it. -/
theorem binNRestartsTheTracker : Obligations.BinNRestartsTheTracker := by
  unfold Obligations.BinNRestartsTheTracker
  intro len7 s hc ft ha
  rw [exec_complete rfl hc, dispatchRule, atDispatch_pay]
  exact ftWrite_atDispatch ha _

/-- Settles O25: the tracker is tested first, then the payload; each of the three branches delivers its unit and leaves
FT alone. -/
theorem textFDeliversValidText : Obligations.TextFDeliversValidText := by
  unfold Obligations.TextFDeliversValidText
  intro len7 s hc
  rw [exec_complete rfl hc, dispatchRule, atDispatch_ft, atDispatch_pay]
  simp only [Bool.not_eq_true', Tracker.isEmpty_eq_false_iff, deliver_atDispatch_same]
  by_cases hopen : s.ft.chunks ≠ []
  · rw [if_pos hopen, if_pos hopen]
  · rw [if_neg hopen, if_neg hopen]
    by_cases hvalid : utf8Valid (framePay len7 s) = true
    · rw [if_pos hvalid, if_pos hvalid]
    · rw [if_neg hvalid, if_neg hvalid]

/-- Settles O26: the tracker is tested, the payload is not; both branches deliver their unit and leave FT alone. -/
theorem binFDeliversBinary : Obligations.BinFDeliversBinary := by
  unfold Obligations.BinFDeliversBinary
  intro len7 s hc
  rw [exec_complete rfl hc, dispatchRule, atDispatch_ft, atDispatch_pay]
  simp only [Bool.not_eq_true', Tracker.isEmpty_eq_false_iff, deliver_atDispatch_same]
  by_cases hopen : s.ft.chunks ≠ []
  · rw [if_pos hopen, if_pos hopen]
  · rw [if_neg hopen, if_neg hopen]

end Sys2Proof.Machine
end

section
/-! Statements of 42_control_frames.md: the control frames (R130 to R133) and the illegal kinds (R134 to R136) on a
complete frame. None of them looks at FT, and each leaves it alone. -/

namespace Sys2Proof.Machine

/-- The close code of a payload that has one: its first byte is the high one (R131). -/
theorem be16_eq_getD {p : Bytes} (h : 2 ≤ p.length) :
    be16 p = (p.getD 0 0).toNat * 256 + (p.getD 1 0).toNat := by
  match p, h with
  | a :: b :: p, _ => simp [be16, beNat_cons]

/-- The Close-Frame Validator as one test: an allowed code and a valid reason (R131). -/
theorem closeVerdict_eq_ite (p : Bytes) :
    closeVerdict p =
      if be16 p ∈ closeAllow ∧ utf8Valid (p.drop 2) = true then .normal else .protocolError := by
  unfold closeVerdict
  by_cases hcode : be16 p ∈ closeAllow <;> cases hreason : utf8Valid (p.drop 2) <;> simp [hcode]

/-- Settles O28: the three tests of the length are those of the DISPATCH rule, and a payload of 2 to 125 bytes has a
code for the validator to read. -/
theorem closeFVerdict : Obligations.CloseFVerdict := by
  unfold Obligations.CloseFVerdict
  intro len7 s hc p code
  rw [exec_complete rfl hc, dispatchRule, atDispatch_pay, atDispatch_paylen_toNat]
  simp only [deliver_atDispatch_same, Bool.and_eq_true, decide_eq_true_eq]
  by_cases hzero : frameLen len7 s = 0
  · rw [if_pos hzero, if_pos hzero]
  · rw [if_neg hzero, if_neg hzero]
    by_cases hlen : 2 ≤ frameLen len7 s ∧ frameLen len7 s ≤ 125
    · have hcode : be16 p = code := be16_eq_getD (by rw [length_framePay]; exact hlen.1)
      rw [if_pos hlen, if_pos hlen, closeVerdict_eq_ite, hcode, closeAllow]
    · rw [if_neg hlen, if_neg hlen]

/-- Settles O29: the rule tests the length alone; both branches leave FT alone. -/
theorem pingFDeliversPing : Obligations.PingFDeliversPing := by
  unfold Obligations.PingFDeliversPing
  intro len7 s hc
  rw [exec_complete rfl hc, dispatchRule, atDispatch_pay, atDispatch_paylen_toNat]
  by_cases hlen : frameLen len7 s ≤ 125
  · rw [if_pos hlen, if_pos hlen, deliver_atDispatch_same]
  · rw [if_neg hlen, if_neg hlen, deliver_atDispatch_same]

/-- Settles O30: the rule has one branch, whatever the length. -/
theorem pongFDeliversPong : Obligations.PongFDeliversPong := by
  unfold Obligations.PongFDeliversPong
  intro len7 s hc
  rw [exec_complete rfl hc, dispatchRule, atDispatch_pay, deliver_atDispatch_same]

/-- The 23 illegal kinds have one meaning (30_encoding.md R71). -/
theorem exec_of_mem_illegalKinds {i : Instr} {len7 : BitVec 7} (hi : i ∈ illegalKinds len7) (s : State) :
    exec i s = illegalFrame len7 s := by
  simp only [illegalKinds, fragmentedControlKinds, reservedNonFinalKinds, reservedFinalKinds, List.cons_append,
    List.nil_append, List.mem_cons, List.not_mem_nil, or_false] at hi
  rcases hi with rfl | rfl | rfl | rfl | rfl | rfl | rfl | rfl | rfl | rfl | rfl | rfl | rfl | rfl | rfl | rfl | rfl |
    rfl | rfl | rfl | rfl | rfl | rfl
  all_goals rfl

/-- On a complete frame that meaning is a violation which leaves FT alone (42_control_frames.md R134 to R137). -/
theorem exec_illegal_complete {i : Instr} {len7 : BitVec 7} {s : State} (hi : i ∈ illegalKinds len7)
    (hc : frameComplete len7 s = true) : exec i s = .next (afterFrame len7 s (.close .protocolError) s.ft) := by
  rw [exec_of_mem_illegalKinds hi, illegalFrame, readFrame_complete hc, deliver_atDispatch_same]

/-- Settles O31: the three are illegal kinds. -/
theorem fragmentedControlFramesClose : Obligations.FragmentedControlFramesClose := by
  unfold Obligations.FragmentedControlFramesClose
  intro len7 s hc i hi
  have hmem : i ∈ illegalKinds len7 := List.mem_append_left _ (List.mem_append_left _ hi)
  exact exec_illegal_complete hmem hc

/-- Settles O32: the ten are illegal kinds. -/
theorem reservedNonFinalFramesClose : Obligations.ReservedNonFinalFramesClose := by
  unfold Obligations.ReservedNonFinalFramesClose
  intro len7 s hc i hi
  have hmem : i ∈ illegalKinds len7 := List.mem_append_left _ (List.mem_append_right _ hi)
  exact exec_illegal_complete hmem hc

/-- Settles O33: the ten are illegal kinds. -/
theorem reservedFinalFramesClose : Obligations.ReservedFinalFramesClose := by
  unfold Obligations.ReservedFinalFramesClose
  intro len7 s hc i hi
  have hmem : i ∈ illegalKinds len7 := List.mem_append_right _ hi
  exact exec_illegal_complete hmem hc

end Sys2Proof.Machine
end

section
/-! Statements of 43_encoder.md: EncLen by class (R161) and the results of ENCODE (R162 to R165, R167). Every emitted
frame but the pong is `emittedFrame` or `closeResponse`, whose byte 0 is FIN = 1, RSV = 0 and the opcode. -/

namespace Sys2Proof.Machine

/-- Byte 0 of an emitted frame: FIN = 1 and RSV = 0 above the opcode (30_encoding.md R61, R75). -/
theorem emitted_byte0 (opcode : BitVec 4) (len7 : BitVec 7) :
    (Header.emitted opcode len7).byte0 = 0x8#4 ++ opcode := by
  have hhigh : BitVec.ofBool true ++ 0#3 = 0x8#4 := by decide
  rw [← hhigh]
  rfl

/-- An emitted frame whose length goes through EncLen, its byte 0 written out (R162 to R164). -/
theorem emittedFrame_eq (opcode : BitVec 4) (p : Bytes) :
    emittedFrame opcode p = (0x8#4 ++ opcode) :: (encLen p.length ++ p) := by
  rw [emittedFrame, emitted_byte0]

/-- The close response of a status: the status code is its whole payload (R165). -/
theorem closeResponse_eq (status : Status) :
    closeResponse status =
      [0x88, 0x02, BitVec.ofNat 8 (statusWire status / 256), BitVec.ofNat 8 (statusWire status)] := by
  rw [closeResponse, emitted_byte0]
  simp [beBytes]

theorem exec_emitText (p : Bytes) (s : State) :
    exec (.emitText p) s = .next (s.setEmitted (some (emittedFrame 0x1 p))) := rfl

theorem exec_emitBin (p : Bytes) (s : State) :
    exec (.emitBin p) s = .next (s.setEmitted (some (emittedFrame 0x2 p))) := rfl

/-- A reassembled text message goes out as a Text unit does (R162). -/
theorem exec_emitReasmText (m : Bytes) (s : State) : exec (.emitReasmText m) s = exec (.emitText m) s := rfl

/-- A reassembled binary message goes out as a Binary unit does (R162). -/
theorem exec_emitReasmBin (m : Bytes) (s : State) : exec (.emitReasmBin m) s = exec (.emitBin m) s := rfl

theorem exec_emitClose (status : Status) (s : State) :
    exec (.emitClose status) s = .next (s.setEmitted (some (closeResponse status))) := rfl

/-- Settles O36: each is the frame of its opcode, whose byte 0 is 0x81 or 0x82, and `emitted` is all that is written. -/
theorem emitTextAndBinary : Obligations.EmitTextAndBinary := by
  unfold Obligations.EmitTextAndBinary
  intro p s
  rw [exec_emitText, exec_emitBin, emittedFrame_eq, emittedFrame_eq]
  exact ⟨rfl, rfl⟩

/-- Settles O35: a reassembled message has the meaning of the unfragmented unit with its payload. -/
theorem emitReassembledMessages : Obligations.EmitReassembledMessages := by
  unfold Obligations.EmitReassembledMessages
  intro m s
  rw [exec_emitReasmText, exec_emitReasmBin]
  exact emitTextAndBinary m s

/-- Settles O37: the two payload bytes are those of 1000, 1002 and 1007. -/
theorem emitCloseResponse : Obligations.EmitCloseResponse := by
  unfold Obligations.EmitCloseResponse
  intro s
  simp only [exec_emitClose, closeResponse_eq]
  exact ⟨rfl, rfl, rfl⟩

/-- A step that serves an ENCODE (R160). -/
theorem step_encode {s : State} {u : LogicalUnit} {rest : List Request} (hp : s.pending = .encode u :: rest) :
    step s = beginEncode exec u (s.setPending rest) := by
  rw [step, serve, hp]
  rfl

/-- The units that call for no frame (R167). -/
theorem emitInstr_eq_none_iff (u : LogicalUnit) :
    emitInstr u = none ↔ u = .continuation none ∨ ∃ p, u = .pong p := by
  cases u with
  | continuation m => rcases m with _ | (_ | _) <;> simp [emitInstr]
  | _ => simp [emitInstr]

/-- ENCODE of a unit that calls for no frame has the result None (R160, R167). -/
theorem beginEncode_of_emitInstr_none {u : LogicalUnit} (h : emitInstr u = none) (run : Instr → State → Result)
    (s : State) : beginEncode run u s = .next (s.setEmitted none) := by
  rw [beginEncode, h]
  rfl

/-- Settles O39: no frame is called for, so the result is None. -/
theorem encodeGivesNoBytesForFragmentsAndPongs : Obligations.EncodeGivesNoBytesForFragmentsAndPongs := by
  unfold Obligations.EncodeGivesNoBytesForFragmentsAndPongs
  intro s u rest hp hu
  have hnone : emitInstr u = none := (emitInstr_eq_none_iff u).2 hu
  rw [step_encode hp, beginEncode_of_emitInstr_none hnone]
  rfl

theorem encLen_of_le_125 {n : Nat} (h : n ≤ 125) : encLen n = [BitVec.ofNat 8 n] := if_pos h

theorem encLen_of_le_65535 {n : Nat} (h : 125 < n) (hM : n ≤ 65535) : encLen n = 126 :: beBytes 2 n := by
  rw [encLen, if_neg (by omega), if_pos hM]

theorem encLen_of_lt_two_pow_64 {n : Nat} (h : 65535 < n) (hL : n < 2 ^ 64) : encLen n = 127 :: beBytes 8 n := by
  rw [encLen, if_neg (by omega), if_neg (by omega), if_pos hL]

/-- A byte made from a number is made from its value modulo 256. -/
theorem ofNat_mod_256 (v : Nat) : BitVec.ofNat 8 (v % 256) = BitVec.ofNat 8 v :=
  BitVec.eq_of_toNat_eq (by simp)

/-- Settles O42: the two and the eight bytes of the longer classes are the digits of L to the base 256. -/
theorem encLenByClass : Obligations.EncLenByClass := by
  unfold Obligations.EncLenByClass
  intro L
  refine ⟨encLen_of_le_125, fun h hM => ?_, fun h hL => ?_⟩
  · rw [encLen_of_le_65535 h hM]
    simp only [beBytes, ofNat_mod_256, Nat.pow_one, Nat.pow_zero, Nat.div_one]
  · rw [encLen_of_lt_two_pow_64 h hL]
    simp only [beBytes, ofNat_mod_256, Nat.pow_one, Nat.pow_zero, Nat.div_one]

end Sys2Proof.Machine
end

section
/-! Statements of 60_exceptions.md: the causes of Close(InvalidDataFormat) and of Close(Normal) (R183, R184), and PARSE is
total (R195). The first two rest on when a result delivers a given unit, the third on a PARSE coming to an outcome
wherever the capacity admits its tracker write. -/

namespace Sys2Proof.Machine

/-- A result that returns the unit `u`. -/
def Result.delivers (u : LogicalUnit) : Result → Prop
  | .next t => t.outcome = some (.ok u)
  | .fault _ | .refused _ => False

@[simp] theorem delivers_next (u : LogicalUnit) (t : State) :
    Result.delivers u (.next t) ↔ t.outcome = some (.ok u) := Iff.rfl

@[simp] theorem not_delivers_refused (u : LogicalUnit) (r : Refusal) : ¬ Result.delivers u (.refused r) := id

@[simp] theorem delivers_deliver (u v : LogicalUnit) (s : State) : Result.delivers u (deliver v s) ↔ v = u := by
  simp [deliver]

@[simp] theorem not_delivers_raiseIOFailure (u : LogicalUnit) (c : IOCause) (s : State) :
    ¬ Result.delivers u (raiseIOFailure c s) := by
  simp [raiseIOFailure_eq]

@[simp] theorem delivers_ite (u : LogicalUnit) (c : Prop) [Decidable c] (r r' : Result) :
    Result.delivers u (if c then r else r') ↔ if c then r.delivers u else r'.delivers u := by
  split <;> rfl

@[simp] theorem delivers_ftWrite (u v : LogicalUnit) (ft : Tracker) (s : State) :
    Result.delivers u (ftWrite ft s (deliver v)) ↔ admits s.params ft = true ∧ v = u := by
  by_cases hadmits : admits s.params ft = true <;> simp [ftWrite_eq, hadmits]

/-- A frame returns a unit only when it is complete, and then by its DISPATCH rule (60_exceptions.md R185). -/
theorem readFrame_delivers_iff (len7 : BitVec 7) (s : State) (d : State → Result) (u : LogicalUnit) :
    (readFrame len7 s d).delivers u ↔ frameComplete len7 s = true ∧ (d (s.atDispatch len7)).delivers u := by
  rw [readFrame_eq, frameComplete_iff]
  cases extCut len7 s <;> cases keyCut len7 s <;> cases payCut len7 s <;> simp

/-- A received instruction returns a unit other than Close(ProtocolError) exactly when it is a complete frame whose
DISPATCH rule returns it: a header violation returns no other (40_frontend.md R92). -/
theorem exec_delivers_iff {i : Instr} {u : LogicalUnit} (he : isEmit i = false) (hu : u ≠ .close .protocolError)
    (s : State) :
    Result.delivers u (exec i s) ↔ ∃ len7, frameComplete len7 s = true ∧ kindLen7 i = some len7 ∧
      (dispatchRule i (s.atDispatch len7)).delivers u := by
  cases hk : kindLen7 i with
  | none =>
    rw [exec_headerViolation hk he, delivers_deliver]
    exact iff_of_false hu.symm fun ⟨_, _, hkind, _⟩ => nomatch hkind
  | some len7 =>
    rw [exec_frameKind hk, readFrame_delivers_iff]
    constructor
    · exact fun ⟨hc, hd⟩ => ⟨len7, hc, rfl, hd⟩
    · rintro ⟨_, hc, hkind, hd⟩
      cases hkind
      exact ⟨hc, hd⟩

/-- The Close-Frame Validator accepts an allowed code with a valid reason (42_control_frames.md R131). -/
theorem closeVerdict_eq_normal_iff (p : Bytes) :
    closeVerdict p = .normal ↔ be16 p ∈ closeAllow ∧ utf8Valid (p.drop 2) = true := by
  simp [closeVerdict_eq_ite]

theorem closeVerdict_ne_invalidDataFormat (p : Bytes) : closeVerdict p ≠ .invalidDataFormat := by
  rw [closeVerdict_eq_ite]
  split <;> simp

/-- The frame kinds whose DISPATCH rule finds text that is not UTF-8 (41_data_frames.md R114, R115). -/
theorem dispatchRule_invalidDataFormat_iff (i : Instr) (len7 : BitVec 7) (s : State) :
    kindLen7 i = some len7 ∧ (dispatchRule i s).delivers (.close .invalidDataFormat) ↔
      i = .textF len7 ∧ s.ft.isEmpty = true ∧ utf8Valid s.pay = false ∨
      i = .contF len7 ∧ s.ft.isEmpty = false ∧ s.ft.shape = .text ∧ utf8Valid (s.ft.concat ++ s.pay) = false := by
  cases i
  case textF => by_cases hempty : s.ft.chunks = [] <;> simp [kindLen7, dispatchRule, hempty]
  case contF =>
    by_cases hempty : s.ft.chunks = [] <;> cases hshape : s.ft.shape <;>
      simp [kindLen7, dispatchRule, hempty, hshape]
  case closeF => simp [dispatchRule, closeVerdict_ne_invalidDataFormat]
  all_goals simp [dispatchRule]

/-- The one frame kind whose DISPATCH rule accepts a close (42_control_frames.md R130). -/
theorem dispatchRule_normalClose_iff (i : Instr) (len7 : BitVec 7) (s : State) :
    kindLen7 i = some len7 ∧ (dispatchRule i s).delivers (.close .normal) ↔
      i = .closeF len7 ∧
        (s.paylen.toNat = 0 ∨ 2 ≤ s.paylen.toNat ∧ s.paylen.toNat ≤ 125 ∧ closeVerdict s.pay = .normal) := by
  cases i
  case closeF => by_cases hzero : s.paylen.toNat = 0 <;> simp [kindLen7, dispatchRule, hzero, and_assoc]
  case contF => cases hshape : s.ft.shape <;> simp [dispatchRule, hshape]
  all_goals simp [dispatchRule]

/-- Settles O54: of the received instructions only a complete frame can return the unit, and of the DISPATCH rules only
those of TEXT.F and CONT.F. -/
theorem causesOfInvalidDataFormat : Obligations.CausesOfInvalidDataFormat := by
  unfold Obligations.CausesOfInvalidDataFormat
  intro i s t he h
  rw [← delivers_next, ← h, exec_delivers_iff he (by simp)]
  simp only [dispatchRule_invalidDataFormat_iff, atDispatch_ft, atDispatch_pay]

/-- Settles O55: of the received instructions only a complete frame can return the unit, and of the DISPATCH rules only
that of CLOSE.F. -/
theorem causesOfNormalClose : Obligations.CausesOfNormalClose := by
  unfold Obligations.CausesOfNormalClose
  intro i s t he h
  rw [← delivers_next, ← h, exec_delivers_iff he (by simp)]
  simp only [dispatchRule_normalClose_iff, closeVerdict_eq_normal_iff, atDispatch_pay, atDispatch_paylen_toNat]

/-- A result that ends a PARSE with an outcome, or is refused because a tracker write is beyond the capacity. -/
def Result.endsParse (p : Params) (r : Result) : Prop :=
  (∃ t o, r = .next t ∧ t.outcome = some o) ∨ (r = .refused .ftCapacity ∧ ∃ ft, admits p ft = false)

@[simp] theorem raiseIOFailure_endsParse (p : Params) (c : IOCause) (s : State) :
    Result.endsParse p (raiseIOFailure c s) :=
  .inl ⟨_, _, raiseIOFailure_eq c s, rfl⟩

@[simp] theorem deliver_endsParse (p : Params) (u : LogicalUnit) (s : State) : Result.endsParse p (deliver u s) :=
  .inl ⟨_, _, rfl, rfl⟩

@[simp] theorem ftWrite_endsParse (ft : Tracker) (s : State) (u : LogicalUnit) :
    Result.endsParse s.params (ftWrite ft s (deliver u)) := by
  rw [ftWrite_eq]
  split
  case isTrue => exact deliver_endsParse _ u _
  case isFalse h => exact .inr ⟨rfl, ft, eq_false_of_ne_true h⟩

/-- Every branch of a DISPATCH rule delivers a unit or writes FT. -/
theorem dispatchRule_endsParse (i : Instr) (s : State) : Result.endsParse s.params (dispatchRule i s) := by
  unfold dispatchRule
  repeat' split
  all_goals simp

/-- A received instruction ends the PARSE, unless the capacity refuses its tracker write. -/
theorem exec_endsParse {i : Instr} (he : isEmit i = false) (s : State) : Result.endsParse s.params (exec i s) := by
  cases hk : kindLen7 i with
  | none =>
    rw [exec_headerViolation hk he]
    exact deliver_endsParse _ _ _
  | some len7 =>
    rw [exec_frameKind hk]
    rcases readFrame_cases len7 s (dispatchRule i) with ⟨-, e⟩ | ⟨-, e⟩ | ⟨-, e⟩ | ⟨-, e⟩ <;> rw [e]
    case inr.inr.inr =>
      rw [← atDispatch_params len7 s]
      exact dispatchRule_endsParse i (s.atDispatch len7)
    all_goals exact raiseIOFailure_endsParse _ _ _

/-- PARSE's decoder answers received instructions only (30_encoding.md R77). -/
theorem isEmit_decodeHeader (h : Header) : isEmit (decodeHeader h) = false := by
  unfold decodeHeader finalKind nonFinalKind
  repeat' split
  all_goals rfl

/-- An ENCODE does not fault (43_encoder.md R160). -/
theorem exec_emit_ne_fault {i : Instr} (he : isEmit i = true) (s : State) (f : Fault) : exec i s ≠ .fault f := by
  cases i <;> simp only [isEmit, Bool.false_eq_true] at he
  case emitPong bs =>
    simp only [exec, execEmitPong]
    split <;> exact nofun
  all_goals exact nofun

/-- No instruction faults (20_memory.md R53). -/
theorem exec_ne_fault (i : Instr) (s : State) (f : Fault) : exec i s ≠ .fault f := by
  cases he : isEmit i with
  | true => exact exec_emit_ne_fault he s f
  | false =>
    rcases exec_endsParse he s with ⟨t, o, e, -⟩ | ⟨e, -⟩ <;> rw [e] <;> exact nofun

/-- A PARSE does not fault, whether or not the request is in its domain. -/
theorem beginParse_ne_fault (buf : Memory) (cur0 : Nat) (s : State) (f : Fault) :
    beginParse exec buf cur0 s ≠ .fault f := by
  by_cases hs : buf.size < 2 ^ 64
  · by_cases hc : cur0 ≤ buf.size
    · rw [beginParse_eq exec buf cur0 s hs hc]
      split
      · exact nofun
      · exact exec_ne_fault _ _ f
    · rw [beginParse, if_neg (by omega), if_pos (by omega)]
      exact nofun
  · rw [beginParse, if_pos (by omega)]
    exact nofun

theorem beginEncode_ne_fault (u : LogicalUnit) (s : State) (f : Fault) : beginEncode exec u s ≠ .fault f := by
  unfold beginEncode
  split
  · exact exec_ne_fault _ s f
  · exact nofun

/-- No step faults: the requests are a PARSE, an ENCODE or a reset. -/
theorem step_ne_fault (s : State) (f : Fault) : step s ≠ .fault f := by
  unfold step serve
  split
  · exact nofun
  · next r rest _ =>
    cases r with
    | parse buf cur0 => exact beginParse_ne_fault buf cur0 _ f
    | parseNext =>
      rw [serveOne]
      split
      · exact beginParse_ne_fault _ _ _ f
      · exact nofun
    | retry buf => exact beginParse_ne_fault buf _ _ f
    | encode u => exact beginEncode_ne_fault u _ f
    | reset => exact nofun

/-- Settles O56: IOFailure(HEADER), or a received instruction, whose tracker write the default capacity admits. -/
theorem parseIsTotal : Obligations.ParseIsTotal := by
  unfold Obligations.ParseIsTotal
  refine ⟨fun s buf cur0 rest hp hs hc hdef => ?_, step_ne_fault⟩
  have hends : Result.endsParse s.params (step s) := by
    rw [step_parse hp hs hc]
    split
    · exact raiseIOFailure_endsParse _ _ _
    · exact exec_endsParse (isEmit_decodeHeader _) _
  rw [hdef] at hends
  rcases hends with hnext | ⟨-, ft, hfull⟩
  · exact hnext
  · rw [admits_default] at hfull
    cases hfull

end Sys2Proof.Machine
end

section
/-! Statements of 30_encoding.md: the decoder and the encoder of a header (R61, R62, R70 to R77). Both go through
`Header`: the bytes of a header are read back as that header, and `decodeHeader` and `Header.ofInstr` undo each other.
-/

namespace Sys2Proof

open Machine

/-- Decoding a header word is decoding its header; what follows is left. -/
theorem decode_encode_append (i : Instr) (rest : Bytes) :
    decode (encode i ++ rest) = .ok (decodeHeader (Header.ofInstr i), rest) := by
  simp [encode, decode]

/-- With RSV = 0 and MASK = 1 the kind is chosen by FIN and OPCODE (R70). -/
theorem decodeHeader_received (fin : Bool) (opcode : BitVec 4) (len7 : BitVec 7) :
    decodeHeader (.received fin opcode len7) = if fin then finalKind opcode len7 else nonFinalKind opcode len7 := by
  cases fin <;> simp [decodeHeader, Header.received]

/-- The two bits below RSV1 are read back. -/
theorem extract_rsv1 (rsv23 : BitVec 2) : (1#1 ++ rsv23 : BitVec 3).extractLsb' 0 2 = rsv23 := by
  revert rsv23; decide

/-- A received instruction's header selects it. -/
theorem decodeHeader_ofInstr {i : Instr} (he : isEmit i = false) : decodeHeader (Header.ofInstr i) = i := by
  cases i
  case hvRsv1 => simp [decodeHeader, Header.ofInstr, extract_rsv1]
  case hvRsv2 fin rsv3 opcode masked len7 => cases rsv3 <;> simp [decodeHeader, Header.ofInstr]
  case hvRsv3 | hvNomask => simp [decodeHeader, Header.ofInstr]
  case emitText | emitBin | emitReasmText | emitReasmBin | emitClose | emitPong => cases he
  all_goals exact decodeHeader_received _ _ _

/-- The header of a frame kind with FIN = 1 is the one its opcode stands in (R70). -/
theorem ofInstr_finalKind (opcode : BitVec 4) (len7 : BitVec 7) :
    Header.ofInstr (finalKind opcode len7) = .received true opcode len7 := by
  obtain ⟨n, hn⟩ := opcode
  match n, hn with
  | 0, _ | 1, _ | 2, _ | 3, _ | 4, _ | 5, _ | 6, _ | 7, _ => rfl
  | 8, _ | 9, _ | 10, _ | 11, _ | 12, _ | 13, _ | 14, _ | 15, _ => rfl
  | n + 16, hn => omega

/-- The header of a frame kind with FIN = 0 is the one its opcode stands in (R70). -/
theorem ofInstr_nonFinalKind (opcode : BitVec 4) (len7 : BitVec 7) :
    Header.ofInstr (nonFinalKind opcode len7) = .received false opcode len7 := by
  obtain ⟨n, hn⟩ := opcode
  match n, hn with
  | 0, _ | 1, _ | 2, _ | 3, _ | 4, _ | 5, _ | 6, _ | 7, _ => rfl
  | 8, _ | 9, _ | 10, _ | 11, _ | 12, _ | 13, _ | 14, _ | 15, _ => rfl
  | n + 16, hn => omega

/-- RSV with its high bit set, from the two bits below (R72). -/
theorem rsv_of_bit_two (rsv : BitVec 3) (h : rsv.getLsbD 2 = true) : 1#1 ++ rsv.extractLsb' 0 2 = rsv := by
  revert rsv; decide

/-- RSV with its middle bit set under a clear high bit, from the bit below (R72). -/
theorem rsv_of_bit_one (rsv : BitVec 3) (h2 : rsv.getLsbD 2 = false) (h1 : rsv.getLsbD 1 = true) :
    1#2 ++ BitVec.ofBool (rsv.getLsbD 0) = rsv := by
  revert rsv; decide

/-- RSV with only its low bit set (R72). -/
theorem rsv_eq_one (rsv : BitVec 3) (h2 : rsv.getLsbD 2 = false) (h1 : rsv.getLsbD 1 = false)
    (h0 : rsv.getLsbD 0 = true) : rsv = 1 := by
  revert rsv; decide

/-- RSV with no bit set (R70). -/
theorem rsv_eq_zero (rsv : BitVec 3) (h2 : rsv.getLsbD 2 = false) (h1 : rsv.getLsbD 1 = false)
    (h0 : rsv.getLsbD 0 = false) : rsv = 0 := by
  revert rsv; decide

/-- The decoded instruction keeps the whole header it was decoded from. -/
theorem ofInstr_decodeHeader (h : Header) : Header.ofInstr (decodeHeader h) = h := by
  obtain ⟨fin, rsv, opcode, masked, len7⟩ := h
  unfold decodeHeader
  cases h2 : rsv.getLsbD 2
  case true => simp [Header.ofInstr, rsv_of_bit_two rsv h2]
  cases h1 : rsv.getLsbD 1
  case true => simpa [Header.ofInstr] using rsv_of_bit_one rsv h2 h1
  cases h0 : rsv.getLsbD 0
  case true => simp [Header.ofInstr, rsv_eq_one rsv h2 h1 h0]
  obtain rfl := rsv_eq_zero rsv h2 h1 h0
  cases masked
  case false => rfl
  cases fin
  case true => exact ofInstr_finalKind opcode len7
  case false => exact ofInstr_nonFinalKind opcode len7

/-- The header word of a decoded instruction is the two bytes it was decoded from. -/
theorem encode_of_decode {b0 b1 : Byte} {rest : Bytes} {i : Instr} (h : decode (b0 :: b1 :: rest) = .ok (i, rest)) :
    encode i = [b0, b1] := by
  cases h
  simp [encode, ofInstr_decodeHeader]

/-- Settles O10: the bytes and the fields of a header determine each other, and so do the header and the received
instruction. -/
theorem decodeAndEncodeAgree : Obligations.DecodeAndEncodeAgree := by
  unfold Obligations.DecodeAndEncodeAgree
  refine ⟨fun i rest he => ?_, fun _ _ _ _ h => encode_of_decode h⟩
  rw [decode_encode_append, decodeHeader_ofInstr he]

/-- Settles O9: each pair of bytes is a closed header. -/
theorem headerBytesOfTheSpecDecode : Obligations.HeaderBytesOfTheSpecDecode :=
  ⟨rfl, rfl, rfl, rfl, rfl, rfl, rfl, rfl, rfl⟩

/-- A header as ENCODE writes it is a violation to the decoder (R75, R77). -/
theorem decodeHeader_emitted (opcode : BitVec 4) (len7 : BitVec 7) :
    decodeHeader (.emitted opcode len7) = .hvNomask true opcode len7 := by
  simp [decodeHeader, Header.emitted]

/-- The header of an EMIT instruction has FIN = 1, RSV = 0 and MASK = 0 (R75). -/
theorem ofInstr_of_isEmit {i : Instr} (he : isEmit i = true) :
    ∃ opcode len7, Header.ofInstr i = .emitted opcode len7 := by
  cases i
  case emitText | emitBin | emitReasmText | emitReasmBin | emitClose | emitPong => exact ⟨_, _, rfl⟩
  all_goals cases he

/-- Settles O12: the header of an EMIT instruction is an emitted one. -/
theorem emittedHeadersAreUnmasked : Obligations.EmittedHeadersAreUnmasked := by
  unfold Obligations.EmittedHeadersAreUnmasked
  intro i he
  obtain ⟨opcode, len7, hi⟩ := ofInstr_of_isEmit he
  have hdecode := decode_encode_append i []
  rw [List.append_nil, hi, decodeHeader_emitted] at hdecode
  exact ⟨opcode, len7, hdecode⟩

/-- The header word of every instruction stands in its own row (R77). -/
theorem headerWord_mem_tableRow : ∀ i : Instr, Laws.TableRow.Statement i
  | .hvRsv1 _ _ _ _ _ => Laws.TableRow.hvRsv1 ..
  | .hvRsv2 _ _ _ _ _ => Laws.TableRow.hvRsv2 ..
  | .hvRsv3 _ _ _ _ => Laws.TableRow.hvRsv3 ..
  | .hvNomask _ _ _ => Laws.TableRow.hvNomask ..
  | .contN _ => Laws.TableRow.contN _
  | .textN _ => Laws.TableRow.textN _
  | .binN _ => Laws.TableRow.binN _
  | .rsvd3N _ => Laws.TableRow.rsvd3N _
  | .rsvd4N _ => Laws.TableRow.rsvd4N _
  | .rsvd5N _ => Laws.TableRow.rsvd5N _
  | .rsvd6N _ => Laws.TableRow.rsvd6N _
  | .rsvd7N _ => Laws.TableRow.rsvd7N _
  | .closeN _ => Laws.TableRow.closeN _
  | .pingN _ => Laws.TableRow.pingN _
  | .pongN _ => Laws.TableRow.pongN _
  | .rsvdBN _ => Laws.TableRow.rsvdBN _
  | .rsvdCN _ => Laws.TableRow.rsvdCN _
  | .rsvdDN _ => Laws.TableRow.rsvdDN _
  | .rsvdEN _ => Laws.TableRow.rsvdEN _
  | .rsvdFN _ => Laws.TableRow.rsvdFN _
  | .contF _ => Laws.TableRow.contF _
  | .textF _ => Laws.TableRow.textF _
  | .binF _ => Laws.TableRow.binF _
  | .rsvd3F _ => Laws.TableRow.rsvd3F _
  | .rsvd4F _ => Laws.TableRow.rsvd4F _
  | .rsvd5F _ => Laws.TableRow.rsvd5F _
  | .rsvd6F _ => Laws.TableRow.rsvd6F _
  | .rsvd7F _ => Laws.TableRow.rsvd7F _
  | .closeF _ => Laws.TableRow.closeF _
  | .pingF _ => Laws.TableRow.pingF _
  | .pongF _ => Laws.TableRow.pongF _
  | .rsvdBF _ => Laws.TableRow.rsvdBF _
  | .rsvdCF _ => Laws.TableRow.rsvdCF _
  | .rsvdDF _ => Laws.TableRow.rsvdDF _
  | .rsvdEF _ => Laws.TableRow.rsvdEF _
  | .rsvdFF _ => Laws.TableRow.rsvdFF _
  | .emitText _ => Laws.TableRow.emitText _
  | .emitBin _ => Laws.TableRow.emitBin _
  | .emitReasmText _ => Laws.TableRow.emitReasmText _
  | .emitReasmBin _ => Laws.TableRow.emitReasmBin _
  | .emitClose _ => Laws.TableRow.emitClose _
  | .emitPong _ => Laws.TableRow.emitPong _

/-- The rows of the received instructions: a frame kind's fixes RSV = 0 and MASK = 1 with the opcode (R70), an HV row
fixes one violating bit (R72, R73). -/
theorem tableRow_cases {i : Instr} (he : isEmit i = false) :
    ((tableRow i).1 = 0xFF80 ∧ (tableRow i).2 &&& 0x7080 = 0x0080) ∨
    (tableRow i ∈ [(0x4000, 0x4000), (0x2000, 0x2000), (0x1000, 0x1000), (0x0080, 0x0000)]) := by
  cases i
  case hvRsv1 | hvRsv2 | hvRsv3 | hvNomask => exact .inr (by simp [tableRow])
  case emitText | emitBin | emitReasmText | emitReasmBin | emitClose | emitPong => cases he
  all_goals exact .inl ⟨rfl, by simp [tableRow]⟩

/-- A word in a frame kind's row is in no other row of the decoder (R77): the violating bits are clear under it. -/
theorem tableRow_eq_of_kindRow {H : Nat} {i j : Instr} (hi : isEmit i = false) (hj : isEmit j = false)
    (hmi : H &&& (tableRow i).1 = (tableRow i).2) (hmj : H &&& (tableRow j).1 = (tableRow j).2)
    (hkind : (tableRow i).1 = 0xFF80) : tableRow j = tableRow i := by
  rcases tableRow_cases hi with ⟨-, hbits⟩ | hmem
  · have hH : H &&& 0x7080 = 0x0080 := by
      rw [← hbits, ← hmi, hkind, Nat.and_assoc]
      rfl
    rcases tableRow_cases hj with ⟨hkj, -⟩ | hmem
    · exact Prod.ext (hkj.trans hkind.symm) (by rw [← hmj, ← hmi, hkj, hkind])
    · have hclear (m : Nat) (hm : 0x7080 &&& m = m) : H &&& m = 0x0080 &&& m := by
        rw [← hH, Nat.and_assoc, hm]
      simp only [List.mem_cons, List.not_mem_nil, or_false] at hmem
      rcases hmem with h | h | h | h <;> rw [h, hclear _ (by decide)] at hmj <;> simp at hmj
  · simp only [List.mem_cons, List.not_mem_nil, or_false] at hmem
    rcases hmem with h | h | h | h <;> simp [h] at hkind

/-- Settles O11: the word is its decoded instruction's header word; where either of two matching rows is a frame kind's,
the other is the same row. -/
theorem headerWordSelectsItsRow : Obligations.HeaderWordSelectsItsRow := by
  unfold Obligations.HeaderWordSelectsItsRow
  intro b0 b1 i j H hdecode
  have he : isEmit i = false := by
    cases hdecode
    exact isEmit_decodeHeader _
  have hH : headerWord i = H := by
    rw [headerWord, encode_of_decode hdecode]
    simp [beNat, H]
  have hrow : H &&& (tableRow i).1 = (tableRow i).2 := by
    rw [← hH]
    exact headerWord_mem_tableRow i
  refine ⟨he, hrow, fun hj hmj hkind => ?_⟩
  rcases hkind with hkind | hkind
  · exact tableRow_eq_of_kindRow he hj hrow hmj hkind
  · exact (tableRow_eq_of_kindRow hj he hmj hrow hkind).symm

end Sys2Proof
end

section
/-! Statements of 10_state.md, 40_frontend.md and 70_reset_and_hazards.md: the state after reset meets the invariant,
and what a step is for each of the host's requests. -/

namespace Sys2Proof.Machine

/-- Settles O2: the buffer is empty, the cursors are 0, and there is neither an outcome nor a request. -/
theorem resetMeetsTheInvariant : Obligations.ResetMeetsTheInvariant where
  buf := Memory.empty_wf
  buflen := Nat.two_pow_pos 64
  forward := Nat.le_refl 0
  inBuffer := Nat.le_refl 0
  outcome := fun _ h => nomatch h
  pending := fun _ h => nomatch h

/-- A step serves the oldest request. -/
theorem step_of_pending {s : State} {r : Request} {rest : List Request} (hp : s.pending = r :: rest) :
    step s = serveOne exec r (s.setPending rest) := by
  rw [step, serve, hp]

/-- Settles O4: no request is served. -/
theorem idleMachineStaysAsItIs : Obligations.IdleMachineStaysAsItIs := by
  unfold Obligations.IdleMachineStaysAsItIs
  intro s hp
  rw [step, serve, hp]

/-- Settles O3: the next state is `State.restart` with the request taken off. -/
theorem resetRequestEmptiesTheTracker : Obligations.ResetRequestEmptiesTheTracker := by
  unfold Obligations.ResetRequestEmptiesTheTracker
  intro s rest hp
  exact ⟨(s.setPending rest).restart, step_of_pending hp, rfl, rfl, rfl, rfl, rfl⟩

/-- The header in the two bytes of BUF at an offset (30_encoding.md R61, R62). -/
def Memory.headerAt (m : Memory) (a : Nat) : Header := Header.ofBytes (m.get a) (m.get (a + 1))

/-- The state once HDR has read a header: the operands loaded, the five fields latched, two bytes consumed
(40_frontend.md R90, R91). -/
def State.headerRead (s : State) (buf : Memory) (cur0 : Nat) : State :=
  ((s.load buf cur0).advance 2).latch (buf.headerAt cur0)

/-- What the start of a PARSE can come to: the two requests outside its domain (log 9), IOFailure(HEADER), or the
instruction its header selects (40_frontend.md R90, R91, R98). -/
theorem beginParse_cases (buf : Memory) (cur0 : Nat) (s : State) :
    (2 ^ 64 ≤ buf.size ∧ beginParse exec buf cur0 s = .refused .bufferTooLong) ∨
    (buf.size < 2 ^ 64 ∧ buf.size < cur0 ∧ beginParse exec buf cur0 s = .refused .cursorBeyondBuffer) ∨
    (buf.size < 2 ^ 64 ∧ cur0 ≤ buf.size ∧ buf.size < cur0 + 2 ∧
      beginParse exec buf cur0 s = raiseIOFailure .header (s.load buf cur0)) ∨
    (buf.size < 2 ^ 64 ∧ cur0 + 2 ≤ buf.size ∧
      beginParse exec buf cur0 s = exec (decodeHeader (buf.headerAt cur0)) (s.headerRead buf cur0)) := by
  by_cases hs : buf.size < 2 ^ 64
  · by_cases hc : cur0 ≤ buf.size
    · have heq := beginParse_eq exec buf cur0 s hs hc
      by_cases hshort : buf.size < cur0 + 2
      · rw [if_pos hshort] at heq
        exact .inr (.inr (.inl ⟨hs, hc, hshort, heq⟩))
      · rw [if_neg hshort] at heq
        exact .inr (.inr (.inr ⟨hs, Nat.le_of_not_lt hshort, heq⟩))
    · refine .inr (.inl ⟨hs, Nat.lt_of_not_le hc, ?_⟩)
      rw [beginParse, if_neg (by omega), if_pos (by omega)]
  · refine .inl ⟨Nat.le_of_not_lt hs, ?_⟩
    rw [beginParse, if_pos (by omega)]

/-- A step that serves a PARSE of a header that is all there. -/
theorem step_parse_header {s : State} {buf : Memory} {cur0 : Nat} {rest : List Request}
    (hp : s.pending = .parse buf cur0 :: rest) (hs : buf.size < 2 ^ 64) (hc : cur0 + 2 ≤ buf.size) :
    step s = exec (decodeHeader (buf.headerAt cur0)) ((s.setPending rest).headerRead buf cur0) := by
  rw [step_parse hp hs (by omega), if_neg (by omega)]
  rfl

/-- Settles O5: the slice is the two header bytes, and the state is the one HDR leaves. -/
theorem parseStepRunsTheDecodedInstruction : Obligations.ParseStepRunsTheDecodedInstruction := by
  unfold Obligations.ParseStepRunsTheDecodedInstruction
  intro s buf cur0 rest i hp hs hc hdecode
  have hi : decodeHeader (buf.headerAt cur0) = i := by
    cases hdecode
    rfl
  rw [step_parse_header hp hs hc, hi]
  rfl

/-- ENCODE of a unit that calls for a frame is that EMIT instruction (43_encoder.md R160). -/
theorem beginEncode_of_emitInstr_some {u : LogicalUnit} {i : Instr} (h : emitInstr u = some i)
    (run : Instr → State → Result) (s : State) : beginEncode run u s = run i s := by
  rw [beginEncode, h]

/-- Settles O6: ENCODE runs the instruction the unit calls for. -/
theorem encodeStepRunsTheFrameOfTheUnit : Obligations.EncodeStepRunsTheFrameOfTheUnit := by
  unfold Obligations.EncodeStepRunsTheFrameOfTheUnit
  intro s u rest i hp hu
  rw [step_encode hp, beginEncode_of_emitInstr_some hu]
  rfl

/-- Settles O7: both requests are served by the start of a PARSE, on the kept buffer and cursor. -/
theorem nextAndRetryAreParses : Obligations.NextAndRetryAreParses := by
  unfold Obligations.NextAndRetryAreParses
  refine ⟨fun s u rest hp ho => ?_, fun s buf rest hp => ?_⟩
  · have hcursor : (s.setPending rest).returnedCursor = true := by
      rw [State.returnedCursor, State.setPending_outcome, ho]
    rw [step_of_pending hp, serveOne, if_pos hcursor]
    rfl
  · rw [step_of_pending hp]
    rfl

/-- Only an Ok outcome gives a cursor to go on from (40_frontend.md R97). -/
theorem returnedCursor_eq_false {s : State} (h : ∀ u, s.outcome ≠ some (.ok u)) : s.returnedCursor = false := by
  unfold State.returnedCursor
  split
  case h_1 u ho => exact absurd ho (h u)
  all_goals rfl

/-- Settles O8: the first two are tested at the start of the PARSE, the third before it. -/
theorem requestsOutsideTheDomainAreRefused : Obligations.RequestsOutsideTheDomainAreRefused := by
  unfold Obligations.RequestsOutsideTheDomainAreRefused
  refine ⟨fun s buf cur0 rest hp hs => ?_, fun s buf cur0 rest hp hs hc => ?_, fun s rest hp ho => ?_⟩
  · rw [step_of_pending hp, serveOne, beginParse, if_pos hs]
  · rw [step_of_pending hp, serveOne, beginParse, if_neg (by omega), if_pos hc]
  · have hcursor : (s.setPending rest).returnedCursor = false := returnedCursor_eq_false ho
    rw [step_of_pending hp, serveOne, hcursor]
    rfl

end Sys2Proof.Machine
end

section
/-! Statements of 40_frontend.md and 60_exceptions.md about one PARSE: the header violation (R92), the four truncations
(R181, R185), the cursor after an Ok outcome (R97). The header decides which instructions read a frame. -/

namespace Sys2Proof.Machine

/-! What reading the length, the key and the payload leaves in each field (R93 to R96). -/

@[simp] theorem lenRead_ft (len7 : BitVec 7) (s : State) : (s.lenRead len7).ft = s.ft := by
  simp [State.lenRead]

@[simp] theorem lenRead_buf (len7 : BitVec 7) (s : State) : (s.lenRead len7).buf = s.buf := by
  simp [State.lenRead]

@[simp] theorem lenRead_cur0 (len7 : BitVec 7) (s : State) : (s.lenRead len7).cur0 = s.cur0 := by
  simp [State.lenRead]

@[simp] theorem lenRead_params (len7 : BitVec 7) (s : State) : (s.lenRead len7).params = s.params := by
  simp [State.lenRead]

@[simp] theorem lenRead_cur (len7 : BitVec 7) (s : State) : (s.lenRead len7).cur = keyOffset len7 s := by
  simp [State.lenRead, keyOffset]

@[simp] theorem keyRead_ft (len7 : BitVec 7) (s : State) : (s.keyRead len7).ft = s.ft := by
  simp [State.keyRead]

@[simp] theorem keyRead_buf (len7 : BitVec 7) (s : State) : (s.keyRead len7).buf = s.buf := by
  simp [State.keyRead]

@[simp] theorem keyRead_cur0 (len7 : BitVec 7) (s : State) : (s.keyRead len7).cur0 = s.cur0 := by
  simp [State.keyRead]

@[simp] theorem keyRead_params (len7 : BitVec 7) (s : State) : (s.keyRead len7).params = s.params := by
  simp [State.keyRead]

@[simp] theorem keyRead_cur (len7 : BitVec 7) (s : State) : (s.keyRead len7).cur = keyOffset len7 s + 4 := by
  simp [State.keyRead]

@[simp] theorem atDispatch_buf (len7 : BitVec 7) (s : State) : (s.atDispatch len7).buf = s.buf := by
  simp [State.atDispatch]

@[simp] theorem atDispatch_cur (len7 : BitVec 7) (s : State) : (s.atDispatch len7).cur = frameEnd len7 s := by
  simp [State.atDispatch, frameEnd]

/-- RSV with its high bit set is not 0 (R72). -/
theorem rsv1_ne_zero (rsv23 : BitVec 2) : (1#1 ++ rsv23 : BitVec 3) ≠ 0#3 := by
  revert rsv23; decide

/-- A received instruction reads a frame exactly when its header has RSV = 0 and MASK = 1 (R92, R98). -/
theorem kindLen7_eq {i : Instr} (he : isEmit i = false) :
    kindLen7 i =
      if (Header.ofInstr i).rsv = 0 ∧ (Header.ofInstr i).masked = true then some (Header.ofInstr i).len7 else none := by
  cases i
  case hvRsv1 => simp [kindLen7, Header.ofInstr, rsv1_ne_zero]
  case hvRsv2 fin rsv3 opcode masked len7 => cases rsv3 <;> simp [kindLen7, Header.ofInstr]
  case hvRsv3 | hvNomask => simp [kindLen7, Header.ofInstr]
  case emitText | emitBin | emitReasmText | emitReasmBin | emitClose | emitPong => cases he
  all_goals rfl

/-- The header of a frame kind holds the kind's LEN7, and no violation. -/
theorem kindLen7_decodeHeader (h : Header) :
    kindLen7 (decodeHeader h) = if h.rsv = 0 ∧ h.masked = true then some h.len7 else none := by
  rw [kindLen7_eq (isEmit_decodeHeader h), ofInstr_decodeHeader]

/-- A violating header is Close(ProtocolError), and nothing more is read (R92). -/
theorem exec_decodeHeader_violation {h : Header} (hv : h.rsv ≠ 0 ∨ h.masked = false) (s : State) :
    exec (decodeHeader h) s = deliver (.close .protocolError) s := by
  refine exec_headerViolation ?_ (isEmit_decodeHeader h) s
  rw [kindLen7_decodeHeader, if_neg]
  rintro ⟨hrsv, hmasked⟩
  rcases hv with hv | hv
  · exact hv hrsv
  · simp [hmasked] at hv

/-- Settles O14: in the bytes' arithmetic the header is a violation, so the step delivers from the state HDR leaves. -/
theorem headerViolationClosesAfterTwoBytes : Obligations.HeaderViolationClosesAfterTwoBytes := by
  unfold Obligations.HeaderViolationClosesAfterTwoBytes
  intro s buf cur0 rest hp hs hc hv
  obtain ⟨-, hrsv, -, hmasked, -⟩ := Header.ofBytes_arithmetic (buf.get cur0) (buf.get (cur0 + 1))
  have hviolation : (buf.headerAt cur0).rsv ≠ 0 ∨ (buf.headerAt cur0).masked = false := by
    rcases hv with hv | hv
    · exact .inl fun h0 => hv (by rw [← hrsv]; exact congrArg BitVec.toNat h0)
    · exact .inr (hmasked.trans (by simp [hv]))
  rw [step_parse_header hp hs hc, exec_decodeHeader_violation hviolation]
  rfl

/-- Settles O15: none of the four is a frame kind or an emitted frame. -/
theorem headerViolationRowsComplete : Obligations.HeaderViolationRowsComplete := by
  unfold Obligations.HeaderViolationRowsComplete
  intro s fin rsv3 masked rsv23 opcode len7 t
  exact ⟨exec_headerViolation rfl rfl s, exec_headerViolation rfl rfl s, exec_headerViolation rfl rfl s,
    exec_headerViolation rfl rfl s⟩

/-- A taken IOFailure is the outcome, leaves FT, and leaves CUR between CUR0 and BUFLEN (60_exceptions.md R186). -/
theorem raiseIOFailure_next {c : IOCause} {s t : State} (h : raiseIOFailure c s = .next t) :
    t.outcome = some (.ioFailure c) ∧ t.ft = s.ft ∧
      (s.cur0 ≤ s.buf.size → s.cur0 ≤ t.cur ∧ t.cur ≤ s.buf.size) := by
  cases h
  exact ⟨rfl, rfl, unspecifiedCur_bounds⟩

/-- A result that takes the IOFailure `c` from `s`: the outcome is its cause, FT is as it was, CUR lies in CUR0 to
BUFLEN (60_exceptions.md R186). -/
def Result.takes (c : IOCause) (s : State) (r : Result) : Prop :=
  ∃ t, r = .next t ∧ t.outcome = some (.ioFailure c) ∧ t.ft = s.ft ∧ s.cur0 ≤ t.cur ∧ t.cur ≤ s.buf.size

theorem raiseIOFailure_takes (c : IOCause) {s : State} (h : s.cur0 ≤ s.buf.size) :
    Result.takes c s (raiseIOFailure c s) := by
  obtain ⟨ho, hft, hcur⟩ := raiseIOFailure_next (raiseIOFailure_eq c s)
  exact ⟨_, raiseIOFailure_eq c s, ho, hft, hcur h⟩

/-- A frame kind whose frame is cut short takes the IOFailure of the field that is cut (R181, R185). -/
theorem exec_takes_of_cut {i : Instr} {len7 : BitVec 7} {s : State} (hk : kindLen7 i = some len7)
    (hc : s.cur0 ≤ s.buf.size) :
    (extCut len7 s = true → Result.takes .extlen s (exec i s)) ∧
    (keyCut len7 s = true → Result.takes .mask s (exec i s)) ∧
    (payCut len7 s = true → Result.takes .payload s (exec i s)) := by
  rw [exec_frameKind hk, readFrame_eq]
  refine ⟨fun hcut => ?_, fun hcut => ?_, fun hcut => ?_⟩
  · rw [if_pos hcut]
    exact raiseIOFailure_takes .extlen hc
  · have hext : ¬ extCut len7 s = true := by
      intro hext
      simp [keyCut, hext] at hcut
    rw [if_neg hext, if_pos hcut]
    exact raiseIOFailure_takes .mask (s := s.lenRead len7) hc
  · have hfits : keyOffset len7 s + 4 ≤ s.buf.size := by
      simp only [payCut, Bool.and_eq_true, decide_eq_true_eq] at hcut
      exact hcut.1
    have hext : ¬ extCut len7 s = true := by
      simp only [extCut, Bool.and_eq_true, decide_eq_true_eq]
      omega
    have hkey : ¬ keyCut len7 s = true := by
      simp only [keyCut, Bool.and_eq_true, decide_eq_true_eq]
      omega
    rw [if_neg hext, if_neg hkey, if_pos hcut]
    exact raiseIOFailure_takes .payload (s := s.keyRead len7) hc

/-- Settles O18: the header step raises the first cause; past it the header selects a frame kind, and the field of its
frame that is cut short raises its own. -/
theorem truncationRaisesTheCauseOfTheMissingField : Obligations.TruncationRaisesTheCauseOfTheMissingField := by
  unfold Obligations.TruncationRaisesTheCauseOfTheMissingField
  intro s buf cur0 rest hp hs hc fails h ext
  refine ⟨fun hshort => ?_, fun hheader hrsv hmasked => ?_⟩
  · have htakes := raiseIOFailure_takes .header (s := (s.setPending rest).load buf cur0) hc
    have hstep := step_parse hp hs hc
    rw [if_pos hshort] at hstep
    rw [← hstep] at htakes
    exact htakes
  · have hkind : kindLen7 (decodeHeader h) = some h.len7 := by
      rw [kindLen7_decodeHeader, if_pos ⟨hrsv, hmasked⟩]
    have hcuts := exec_takes_of_cut (s := (s.setPending rest).headerRead buf cur0) hkind hc
    have hstep : step s = exec (decodeHeader h) _ := step_parse_header hp hs hheader
    rw [← hstep] at hcuts
    obtain ⟨hext, hkey, hpay⟩ := hcuts
    have hsize : extSize h.len7 = ext := extSize_eq h.len7
    have hq : keyOffset h.len7 ((s.setPending rest).headerRead buf cur0) = cur0 + 2 + ext := by
      rw [← hsize]
      rfl
    have hend : frameEnd h.len7 ((s.setPending rest).headerRead buf cur0) =
        cur0 + 2 + ext + 4 + decLen h.len7 (buf.slice (cur0 + 2) ext) := by
      rw [frameEnd, hq, ← hsize]
      rfl
    have hbuf : ((s.setPending rest).headerRead buf cur0).buf = buf := rfl
    refine ⟨fun hpos hcut => hext ?_, fun hfull hcut => hkey ?_, fun hfull hcut => hpay ?_⟩
    · simp only [extCut, hsize, hq, hbuf, Bool.and_eq_true, bne_iff_ne, decide_eq_true_eq]
      omega
    · simp only [keyCut, extCut, hsize, hq, hbuf, Bool.and_eq_true, Bool.not_eq_true', Bool.and_eq_false_iff,
        decide_eq_true_eq, decide_eq_false_iff_not]
      omega
    · simp only [payCut, hq, hend, hbuf, Bool.and_eq_true, decide_eq_true_eq]
      omega

/-- After an Ok outcome the header registers still hold the header that selected the instruction. -/
theorem step_parse_ok {s t : State} {buf : Memory} {cur0 : Nat} {rest : List Request} {u : LogicalUnit}
    (hp : s.pending = .parse buf cur0 :: rest) (ht : step s = .next t) (hu : t.outcome = some (.ok u)) :
    exec (decodeHeader t.header) ((s.setPending rest).headerRead buf cur0) = .next t := by
  rw [step_of_pending hp, serveOne] at ht
  rcases beginParse_cases buf cur0 (s.setPending rest) with ⟨-, e⟩ | ⟨-, -, e⟩ | ⟨-, -, -, e⟩ | ⟨-, -, e⟩
  case inr.inr.inr =>
    rw [e] at ht
    rw [exec_header ht]
    exact ht
  case inr.inr.inl =>
    rw [e] at ht
    cases ht
    cases hu
  all_goals
    rw [e] at ht
    cases ht

/-- Settles O19: the instruction is a frame kind, whose frame is delivered whole, or a header violation, which leaves
CUR where HDR has put it. -/
theorem cursorStandsAfterTheFrame : Obligations.CursorStandsAfterTheFrame := by
  unfold Obligations.CursorStandsAfterTheFrame
  intro s buf cur0 rest hp t u ht hu ext
  have hexec := step_parse_ok hp ht hu
  have hkind : kindLen7 (decodeHeader t.header) = if t.rsv = 0 ∧ t.masked = true then some t.len7 else none :=
    kindLen7_decodeHeader t.header
  rcases exec_next_cases hexec with ⟨len7, hk, ⟨-, e⟩ | ⟨-, e⟩ | ⟨-, e⟩ | ⟨-, v, ft, e⟩⟩ | ⟨hk, -, e⟩ | ⟨he, -⟩
  case inl.inr.inr.inr =>
    rw [hkind] at hk
    split at hk
    case isFalse => cases hk
    case isTrue hframe =>
      have hlen : t.paylen.toNat = frameLen len7 ((s.setPending rest).headerRead buf cur0) := by
        rw [e]
        exact paylen_toNat len7 _
      have hsize : ext = extSize len7 := by rw [← Option.some.inj hk, extSize_eq]
      rw [if_pos hframe, hlen, hsize, e]
      rfl
  case inr.inl =>
    rw [hkind] at hk
    split at hk
    case isTrue => cases hk
    case isFalse hviolation =>
      rw [if_neg hviolation, e]
      rfl
  case inr.inr =>
    rw [isEmit_decodeHeader] at he
    cases he
  all_goals
    cases e
    cases hu

end Sys2Proof.Machine
end

section
/-! Statements of 40_frontend.md and 30_encoding.md about the two codecs and the client's frame: the mask undoes itself
(R100), DecLen undoes EncLen (R101), and a client's frame is read back whole (R60, R76). -/

namespace Sys2Proof.Machine

/-- The mask runs through the key with period four (R100). -/
theorem Key.byte_mod_four (k : Key) (i : Nat) : k.byte (i % 4) = k.byte i := by
  simp [Key.byte]

/-- The masked byte at an index. -/
theorem getElem?_mask (k : Key) (t : Bytes) (j : Nat) : (mask k t)[j]? = t[j]?.map fun b => b ^^^ k.byte j := by
  rw [mask, getElem?_maskFrom, Nat.zero_add]

/-- Masking twice with one key is masking with nothing. -/
theorem mask_mask (k : Key) (t : Bytes) : mask k (mask k t) = t := by
  apply List.ext_getElem?
  intro j
  rw [getElem?_mask, getElem?_mask]
  cases t[j]? with
  | none => rfl
  | some b => rw [Option.map_some, Option.map_some, BitVec.xor_assoc, BitVec.xor_self, BitVec.xor_zero]

/-- Settles O44: byte by byte, and by `mask_mask`. -/
theorem maskIsSelfInverse : Obligations.MaskIsSelfInverse := by
  unfold Obligations.MaskIsSelfInverse
  intro k t
  refine ⟨length_mask k t, fun j b hb => ?_, mask_mask k t⟩
  rw [getElem?_mask, hb, Option.map_some, Key.byte_mod_four]

/-- The shortest class of a u64 holds it (43_encoder.md R161). -/
theorem holds_shortest {n : Nat} (h : n < 2 ^ 64) : (LenClass.shortest n).holds n = true := by
  unfold LenClass.shortest
  split
  case isTrue hS => simpa [LenClass.holds] using hS
  case isFalse =>
    split
    case isTrue hM => simp only [LenClass.holds, decide_eq_true_eq]; omega
    case isFalse => simpa [LenClass.holds] using h

/-- With MASK clear, byte 1 is its length field (R62, R75). -/
theorem emitted_byte1_toNat (opcode : BitVec 4) (len7 : BitVec 7) :
    (Header.emitted opcode len7).byte1.toNat = len7.toNat := by
  show (BitVec.ofBool false ++ len7 : BitVec (1 + 7)).toNat = len7.toNat
  rw [BitVec.toNat_append]
  simp

/-- EncLen is byte 1 of an emitted header with the length field of the shortest class, then that class's extended field
(R161). -/
theorem encLen_eq_shortest (opcode : BitVec 4) {n : Nat} (h : n < 2 ^ 64) :
    encLen n =
      (Header.emitted opcode ((LenClass.shortest n).len7 n)).byte1 :: (LenClass.shortest n).ext n := by
  have hbyte (b : Byte) (len7 : BitVec 7) (e : b.toNat = len7.toNat) : b = (Header.emitted opcode len7).byte1 :=
    BitVec.eq_of_toNat_eq (e.trans (emitted_byte1_toNat opcode len7).symm)
  by_cases hS : n ≤ 125
  · rw [encLen_of_le_125 hS, LenClass.shortest, if_pos hS, hbyte (BitVec.ofNat 8 n) (LenClass.len7 n .S)]
    · rfl
    · simp only [LenClass.len7, BitVec.toNat_ofNat]
      omega
  · by_cases hM : n ≤ 65535
    · rw [encLen_of_le_65535 (by omega) hM, LenClass.shortest, if_neg hS, if_pos hM, hbyte 126 (LenClass.len7 n .M) rfl]
      rfl
    · rw [encLen_of_lt_two_pow_64 (by omega) h, LenClass.shortest, if_neg hS, if_neg hM,
        hbyte 127 (LenClass.len7 n .L) rfl]
      rfl

/-- Byte 1 holds the length field of its header (R62). -/
theorem byte1_len7 (h : Header) : h.byte1.extractLsb' 0 7 = h.len7 := congrArg Header.len7 (Header.ofBytes_bytes h)

/-- Settles O43: the length field is the shortest class's, which DecLen reads back; the other way round 5 in class M is
not minimal. -/
theorem decLenInvertsEncLen : Obligations.DecLenInvertsEncLen := by
  unfold Obligations.DecLenInvertsEncLen
  refine ⟨fun L hL => ⟨_, _, encLen_eq_shortest 0 hL, ?_, ?_, ?_⟩, 126, [0, 5], by decide, by decide⟩
  · rw [Header.getLsbD_byte1]
    rfl
  · rw [byte1_len7, length_ext]
    exact congrArg LenClass.extBytes (ofLen7_len7 (holds_shortest hL)).symm
  · rw [byte1_len7]
    exact decLen_ext (holds_shortest hL)

/-- A part of a host's buffer, read at its own offset. -/
theorem Memory.slice_ofBytes_part {s before part after : Bytes} {a n : Nat} (h : s = before ++ part ++ after)
    (ha : before.length = a) (hn : part.length = n) : (Memory.ofBytes s).slice a n = part := by
  subst h ha hn
  rw [Memory.slice_ofBytes (by simp)]
  simp

/-- The key of a frame as the four bytes read (10_state.md R24). -/
theorem frameKey_eq_ofBytes (len7 : BitVec 7) (s : State) :
    frameKey len7 s = Key.ofBytes (s.buf.slice (keyOffset len7 s) 4) := rfl

/-- The payload of a frame is the mask of the bytes after the key (40_frontend.md R96). -/
theorem framePay_eq_mask (len7 : BitVec 7) (s : State) :
    framePay len7 s = mask (frameKey len7 s) (s.buf.slice (keyOffset len7 s + 4) (frameLen len7 s)) :=
  (mask_slice _ _ _ _).symm

/-- The parts of a client's frame, at their offsets in the host's buffer (30_encoding.md R60, R65). -/
theorem slices_clientFrame (before after payload : Bytes) (fin : Bool) (opcode : BitVec 4) (c : LenClass) (key : Key) :
    let buf := Memory.ofBytes (before ++ clientFrame fin opcode c key payload ++ after)
    let h := Header.received fin opcode (c.len7 payload.length)
    buf.slice before.length 2 = [h.byte0, h.byte1] ∧
    buf.slice (before.length + 2) c.extBytes = c.ext payload.length ∧
    buf.slice (before.length + 2 + c.extBytes) 4 = key.toBytes ∧
    buf.slice (before.length + 2 + c.extBytes + 4) payload.length = mask key payload := by
  intro buf h
  refine ⟨?_, ?_, ?_, ?_⟩
  · exact Memory.slice_ofBytes_part (before := before)
      (after := c.ext payload.length ++ key.toBytes ++ mask key payload ++ after) (by simp [clientFrame, h]) rfl rfl
  · exact Memory.slice_ofBytes_part (before := before ++ [h.byte0, h.byte1])
      (after := key.toBytes ++ mask key payload ++ after) (by simp [clientFrame, h]) (by simp) (by simp)
  · exact Memory.slice_ofBytes_part (before := before ++ [h.byte0, h.byte1] ++ c.ext payload.length)
      (after := mask key payload ++ after) (by simp [clientFrame, h]) (by simp; omega) rfl
  · exact Memory.slice_ofBytes_part (before := before ++ [h.byte0, h.byte1] ++ c.ext payload.length ++ key.toBytes)
      (after := after) (by simp [clientFrame, h]) (by simp; omega) (by simp)

theorem length_clientFrame (fin : Bool) (opcode : BitVec 4) (c : LenClass) (key : Key) (payload : Bytes) :
    (clientFrame fin opcode c key payload).length = 2 + c.extBytes + 4 + payload.length := by
  simp [clientFrame]
  omega

/-- The header of a client's frame is read back (R60, R76). -/
theorem headerAt_clientFrame (before after payload : Bytes) (fin : Bool) (opcode : BitVec 4) (c : LenClass)
    (key : Key) :
    (Memory.ofBytes (before ++ clientFrame fin opcode c key payload ++ after)).headerAt before.length =
      .received fin opcode (c.len7 payload.length) := by
  obtain ⟨hheader, -⟩ := slices_clientFrame before after payload fin opcode c key
  obtain ⟨h0, htail⟩ := List.cons.inj hheader
  obtain ⟨h1, -⟩ := List.cons.inj htail
  rw [Memory.headerAt, h0, h1, Header.ofBytes_bytes]

/-- The operands of a client's frame are read back from the byte after its header: length, key, payload, and the offset
after the frame (R63, R65, R66). -/
theorem frame_of_clientFrame {s : State} {before after payload : Bytes} {fin : Bool} {opcode : BitVec 4} {c : LenClass}
    {key : Key} (hc : c.holds payload.length = true)
    (hbuf : s.buf = Memory.ofBytes (before ++ clientFrame fin opcode c key payload ++ after))
    (hcur : s.cur = before.length + 2) :
    frameLen (c.len7 payload.length) s = payload.length ∧ frameKey (c.len7 payload.length) s = key ∧
    framePay (c.len7 payload.length) s = payload ∧
    frameEnd (c.len7 payload.length) s = before.length + (clientFrame fin opcode c key payload).length := by
  obtain ⟨-, hext, hkey, hpay⟩ := slices_clientFrame before after payload fin opcode c key
  rw [← hbuf] at hext hkey hpay
  have hsize : extSize (c.len7 payload.length) = c.extBytes := congrArg LenClass.extBytes (ofLen7_len7 hc)
  have hq : keyOffset (c.len7 payload.length) s = before.length + 2 + c.extBytes := by rw [keyOffset, hcur, hsize]
  have hlen : frameLen (c.len7 payload.length) s = payload.length := by
    rw [frameLen, hcur, hsize, hext, decLen_ext hc]
  have hk : frameKey (c.len7 payload.length) s = key := by
    rw [frameKey_eq_ofBytes, hq, hkey, Key.ofBytes_toBytes]
  refine ⟨hlen, hk, ?_, ?_⟩
  · rw [framePay_eq_mask, hk, hq, hlen, hpay, mask_mask]
  · rw [frameEnd, hq, hlen, length_clientFrame]
    omega

/-- Settles O20: the header selects the kind, and from the state HDR leaves the operands are read back. -/
theorem clientFrameIsReadBackWhole : Obligations.ClientFrameIsReadBackWhole := by
  unfold Obligations.ClientFrameIsReadBackWhole
  intro s before after payload fin opcode c key rest frame buf h hc hs hp
  have hframe : 2 ≤ frame.length := by
    rw [length_clientFrame]
    omega
  have hsize : buf.size = before.length + frame.length + after.length := by
    rw [Memory.size_ofBytes, List.length_append, List.length_append]
  have hheader : buf.headerAt before.length = h := headerAt_clientFrame before after payload fin opcode c key
  have hstep := step_parse_header hp hs (by omega)
  rw [hheader] at hstep
  obtain ⟨hlen, hkey, hpay, hend⟩ :=
    frame_of_clientFrame (s := (s.setPending rest).headerRead buf before.length) hc rfl rfl
  refine ⟨_, hstep, rfl, rfl, rfl, ?_, hlen, hkey, hpay, hend⟩
  rw [frameComplete, decide_eq_true_eq]
  have hfits : before.length + frame.length ≤ buf.size := by omega
  exact Nat.le_trans (Nat.le_of_eq hend) hfits

end Sys2Proof.Machine
end

section
/-! Statements of 43_encoder.md: ENCODE never fails (R160), its frames begin with their rows' header words
(30_encoding.md R75, R77), the reply to a ping (R166), and an emitted frame fed back, as it is and masked (R169). -/

namespace Sys2Proof.Machine

/-- The instruction emits the frame of an opcode and a payload, in every state, and its header is that frame's
(30_encoding.md R75). -/
structure Emits (i : Instr) (opcode : BitVec 4) (payload : Bytes) : Prop where
  u64    : payload.length < 2 ^ 64
  header : Header.ofInstr i = .emitted opcode (emittedLen7 payload)
  frame  : ∀ s, exec i s = .next (s.setEmitted (some (emittedFrame opcode payload)))

/-- The close response is the frame of its two-byte status code (R165). -/
theorem closeResponse_eq_emittedFrame (status : Status) :
    closeResponse status = emittedFrame 0x8 (beBytes 2 (statusWire status)) := by
  rw [emittedFrame, length_beBytes, encLen_of_le_125 (by decide)]
  rfl

/-- The reply to a ping of at most 125 bytes is the frame of the ping's payload (R166). -/
theorem pongReply_eq_emittedFrame {p : Bytes} (h : p.length ≤ 125) : pongReply p = emittedFrame 0xA p := by
  rw [emittedFrame, encLen_of_le_125 h]
  rfl

/-- The length field of a payload of at most 125 bytes is its length (R161). -/
theorem emittedLen7_of_le {p : Bytes} (h : p.length ≤ 125) : emittedLen7 p = BitVec.ofNat 7 p.length := by
  rw [emittedLen7, LenClass.shortest, if_pos h]
  rfl

theorem emits_emitText {p : Bytes} (h : p.length < 2 ^ 64) : Emits (.emitText p) 0x1 p :=
  ⟨h, rfl, exec_emitText p⟩

theorem emits_emitBin {p : Bytes} (h : p.length < 2 ^ 64) : Emits (.emitBin p) 0x2 p :=
  ⟨h, rfl, exec_emitBin p⟩

theorem emits_emitReasmText {p : Bytes} (h : p.length < 2 ^ 64) : Emits (.emitReasmText p) 0x1 p :=
  ⟨h, rfl, exec_emitText p⟩

theorem emits_emitReasmBin {p : Bytes} (h : p.length < 2 ^ 64) : Emits (.emitReasmBin p) 0x2 p :=
  ⟨h, rfl, exec_emitBin p⟩

theorem emits_emitClose (status : Status) : Emits (.emitClose status) 0x8 (beBytes 2 (statusWire status)) := by
  refine ⟨by rw [length_beBytes]; decide, ?_, fun s => ?_⟩
  · rw [emittedLen7_of_le (by rw [length_beBytes]; decide), length_beBytes]
    rfl
  · rw [exec_emitClose, closeResponse_eq_emittedFrame]

theorem emits_emitPong {p : Bytes} (h : p.length ≤ 125) : Emits (.emitPong p) 0xA p := by
  refine ⟨by omega, ?_, fun s => ?_⟩
  · rw [emittedLen7_of_le h]
    rfl
  · rw [exec, execEmitPong, if_pos h, pongReply_eq_emittedFrame h]
    rfl

/-- A well-formed text frame: its length is a u64 and its text is valid (10_state.md R30). -/
theorem wellFormed_text {p : Bytes} (h : (lengthOk p && utf8Valid p) = true) :
    p.length < 2 ^ 64 ∧ utf8Valid p = true := by
  simpa [lengthOk] using h

/-- Every well-formed EMIT instruction emits a frame of one of R75's four opcodes. -/
theorem emits_of_wellFormed {i : Instr} (he : isEmit i = true) (hw : i.wellFormed = true) :
    ∃ opcode ∈ [0x1#4, 0x2#4, 0x8#4, 0xA#4], ∃ p, Emits i opcode p := by
  cases i
  case emitText p => exact ⟨0x1, by decide, p, emits_emitText (wellFormed_text hw).1⟩
  case emitReasmText p => exact ⟨0x1, by decide, p, emits_emitReasmText (wellFormed_text hw).1⟩
  case emitBin p => exact ⟨0x2, by decide, p, emits_emitBin (of_decide_eq_true hw)⟩
  case emitReasmBin p => exact ⟨0x2, by decide, p, emits_emitReasmBin (of_decide_eq_true hw)⟩
  case emitClose status => exact ⟨0x8, by decide, _, emits_emitClose status⟩
  case emitPong p => exact ⟨0xA, by decide, p, emits_emitPong (of_decide_eq_true hw)⟩
  all_goals cases he

/-- Settles O38: one test of the length decides. -/
theorem emitPongReply : Obligations.EmitPongReply := by
  unfold Obligations.EmitPongReply
  intro p s
  refine ⟨fun h => ?_, fun h => ?_⟩
  · rw [exec, execEmitPong, if_pos h, pongReply, emitted_byte0]
    rfl
  · rw [exec, execEmitPong, if_neg (by omega)]

/-- An emitted frame, header first: its two header bytes, the extended length, the payload (30_encoding.md R60, R75). -/
theorem emittedFrame_eq_header (opcode : BitVec 4) {p : Bytes} (h : p.length < 2 ^ 64) :
    emittedFrame opcode p =
      (Header.emitted opcode (emittedLen7 p)).byte0 :: (Header.emitted opcode (emittedLen7 p)).byte1 ::
        ((LenClass.shortest p.length).ext p.length ++ p) := by
  rw [emittedFrame, encLen_eq_shortest opcode h]
  rfl

/-- Settles O41: the emitted frame's header is the instruction's. -/
theorem emittedFrameBeginsWithItsHeaderWord : Obligations.EmittedFrameBeginsWithItsHeaderWord := by
  unfold Obligations.EmittedFrameBeginsWithItsHeaderWord
  intro i s t bytes he hw h ht
  obtain ⟨opcode, -, p, hemits⟩ := emits_of_wellFormed he hw
  have hbytes : emittedFrame opcode p = bytes := by
    rw [hemits.frame] at h
    cases h
    exact Option.some.inj (Option.some.inj ht)
  rw [← hbytes, emittedFrame_eq_header opcode hemits.u64, encode, hemits.header]
  rfl

/-- A unit calls for EMIT instructions only (R160). -/
theorem isEmit_of_emitInstr {u : LogicalUnit} {i : Instr} (h : emitInstr u = some i) : isEmit i = true := by
  unfold emitInstr at h
  split at h <;> cases h <;> rfl

/-- Byte 0 of the four emitted opcodes (30_encoding.md R75). -/
theorem emitted_byte0_mem : ∀ opcode ∈ [0x1#4, 0x2#4, 0x8#4, 0xA#4],
    0x8#4 ++ opcode ∈ [0x81#8, 0x82#8, 0x88#8, 0x8A#8] := by
  decide

/-- Settles O40: a unit that calls for no frame has the result None; any other emits one frame, in every state the
same. -/
theorem encodeNeverFails : Obligations.EncodeNeverFails := by
  unfold Obligations.EncodeNeverFails
  intro u hwf
  cases hu : emitInstr u with
  | none =>
    refine ⟨none, fun s rest hp => ?_, ?_, fun _ h => nomatch h⟩
    · rw [step_encode hp, beginEncode_of_emitInstr_none hu]
      rfl
    · exact iff_of_true rfl ((emitInstr_eq_none_iff u).1 hu)
  | some i =>
    obtain ⟨opcode, hop, p, hemits⟩ := emits_of_wellFormed (isEmit_of_emitInstr hu) (hwf i hu)
    refine ⟨some (emittedFrame opcode p), fun s rest hp => ?_, ?_, ?_⟩
    · rw [step_encode hp, beginEncode_of_emitInstr_some hu]
      exact hemits.frame _
    · rw [← emitInstr_eq_none_iff, hu]
      simp
    · rintro _ ⟨⟩
      refine ⟨0x8#4 ++ opcode, emitted_byte0_mem opcode hop, p, emittedFrame_eq opcode p, ?_⟩
      rw [emittedFrame_eq_header opcode hemits.u64]
      show (Header.emitted opcode (emittedLen7 p)).byte1.getLsbD 7 = false
      rw [Header.getLsbD_byte1]
      rfl

/-- Setting bit 7 of byte 1 sets MASK and nothing else (R62, R169). -/
theorem emitted_byte1_or_mask (opcode : BitVec 4) (len7 : BitVec 7) :
    (Header.emitted opcode len7).byte1 ||| 0x80#8 = (Header.received true opcode len7).byte1 := by
  show BitVec.ofBool false ++ len7 ||| 0x80#8 = BitVec.ofBool true ++ len7
  revert len7
  decide

/-- The extended length field of an emitted frame has the size its length field says (R66). -/
theorem extSize_emittedLen7 {p : Bytes} (h : p.length < 2 ^ 64) :
    extSize (emittedLen7 p) = (LenClass.shortest p.length).extBytes :=
  congrArg LenClass.extBytes (ofLen7_len7 (holds_shortest h))

/-- Masked by a client, an emitted frame is the client's frame of the same opcode and payload (R169). -/
theorem echoFrame_emittedFrame (key : Key) (opcode : BitVec 4) {p : Bytes} (h : p.length < 2 ^ 64) :
    echoFrame key (emittedFrame opcode p) = clientFrame true opcode (LenClass.shortest p.length) key p := by
  have hsize : extSize (Header.emitted opcode (emittedLen7 p)).len7 =
      ((LenClass.shortest p.length).ext p.length).length := by
    rw [length_ext]
    exact extSize_emittedLen7 h
  rw [emittedFrame_eq_header opcode h, echoFrame, byte1_len7, hsize, emitted_byte1_or_mask]
  simp only [List.take_left, List.drop_left, clientFrame, List.append_assoc]
  rfl

theorem length_emittedFrame (opcode : BitVec 4) {p : Bytes} (h : p.length < 2 ^ 64) :
    (emittedFrame opcode p).length = 2 + (LenClass.shortest p.length).extBytes + p.length := by
  rw [emittedFrame_eq_header opcode h]
  simp only [List.length_cons, List.length_append, length_ext]
  omega

/-- Fed back as it is, an emitted frame is unmasked: Close(ProtocolError) (R169). -/
theorem step_emittedFrame {s : State} {opcode : BitVec 4} {p : Bytes} {rest : List Request} (h : p.length < 2 ^ 64)
    (hs : (emittedFrame opcode p).length < 2 ^ 64)
    (hp : s.pending = .parse (Memory.ofBytes (emittedFrame opcode p)) 0 :: rest) :
    ∃ t, step s = .next t ∧ t.outcome = some (.ok (.close .protocolError)) := by
  have hheader : (Memory.ofBytes (emittedFrame opcode p)).headerAt 0 = .emitted opcode (emittedLen7 p) := by
    rw [Memory.headerAt, Memory.get_ofBytes, Memory.get_ofBytes, emittedFrame_eq_header opcode h]
    exact Header.ofBytes_bytes _
  have hfits : 0 + 2 ≤ (Memory.ofBytes (emittedFrame opcode p)).size := by
    rw [Memory.size_ofBytes, length_emittedFrame opcode h]
    omega
  rw [step_parse_header hp hs hfits, hheader, exec_decodeHeader_violation (.inr rfl)]
  exact ⟨_, rfl, rfl⟩

/-- Fed back masked, an emitted frame is a complete frame of its opcode with FIN = 1, with the emitted payload, its end
four bytes on for the key (R169). -/
theorem step_echoFrame {s : State} {opcode : BitVec 4} {p : Bytes} {key : Key} {rest : List Request}
    (h : p.length < 2 ^ 64) (hs : (emittedFrame opcode p).length + 4 < 2 ^ 64)
    (hp : s.pending = .parse (Memory.ofBytes (echoFrame key (emittedFrame opcode p))) 0 :: rest) :
    ∃ s1, step s = exec (finalKind opcode (emittedLen7 p)) s1 ∧ s1.ft = s.ft ∧
      frameComplete (emittedLen7 p) s1 = true ∧ framePay (emittedLen7 p) s1 = p ∧
      frameEnd (emittedLen7 p) s1 = (emittedFrame opcode p).length + 4 := by
  have hlen : (clientFrame true opcode (LenClass.shortest p.length) key p).length =
      (emittedFrame opcode p).length + 4 := by
    rw [length_clientFrame, length_emittedFrame opcode h]
    omega
  have hread := clientFrameIsReadBackWhole s [] [] p true opcode (LenClass.shortest p.length) key rest
    (holds_shortest h)
  rw [echoFrame_emittedFrame key opcode h] at hp
  rw [List.nil_append, List.append_nil, Memory.size_ofBytes, hlen] at hread
  obtain ⟨s1, hstep, hft, -, -, hcomplete, -, -, hpay, hend⟩ := hread hs hp
  rw [decodeHeader_received, if_pos rfl] at hstep
  rw [List.length_nil, Nat.zero_add] at hend
  exact ⟨s1, hstep, hft, hcomplete, hpay, hend⟩

section
variable {len7 : BitVec 7} {s : State} {p : Bytes}

/-- Valid text in one frame, on an Empty tracker (41_data_frames.md R115). -/
theorem textF_delivers (hvalid : utf8Valid p = true) (hc : frameComplete len7 s = true) (hp : framePay len7 s = p)
    (hempty : s.ft.chunks = []) : exec (.textF len7) s = .next (afterFrame len7 s (.text p) s.ft) := by
  rw [textFDeliversValidText len7 s hc, if_neg (fun hopen => hopen hempty), hp, if_pos hvalid]

/-- Binary data in one frame, on an Empty tracker (41_data_frames.md R116). -/
theorem binF_delivers (hc : frameComplete len7 s = true) (hp : framePay len7 s = p) (hempty : s.ft.chunks = []) :
    exec (.binF len7) s = .next (afterFrame len7 s (.binary p) s.ft) := by
  rw [binFDeliversBinary len7 s hc, if_neg (fun hopen => hopen hempty), hp]

/-- The payload of a close response is an allowed code with no reason (42_control_frames.md R131). -/
theorem closeVerdict_statusWire (status : Status) : closeVerdict (beBytes 2 (statusWire status)) = .normal := by
  cases status <;> decide

/-- The payload of a close response, in a close frame (42_control_frames.md R130). -/
theorem closeF_delivers {status : Status} (hc : frameComplete len7 s = true)
    (hp : framePay len7 s = beBytes 2 (statusWire status)) :
    exec (.closeF len7) s = .next (afterFrame len7 s (.close .normal) s.ft) := by
  have hlen : frameLen len7 s = 2 := by rw [← length_framePay, hp, length_beBytes]
  rw [exec_complete rfl hc, dispatchRule, atDispatch_pay, atDispatch_paylen_toNat, hlen, hp, closeVerdict_statusWire]
  exact deliver_atDispatch_same len7 s _

/-- Any payload, in a pong frame (42_control_frames.md R133). -/
theorem pongF_delivers (hc : frameComplete len7 s = true) (hp : framePay len7 s = p) :
    exec (.pongF len7) s = .next (afterFrame len7 s (.pong p) s.ft) := by
  rw [pongFDeliversPong len7 s hc, hp]

end

/-- What R169 lists, unit by unit: on an Empty tracker the complete frame of the emitted opcode and payload delivers the
echo's unit. -/
theorem echo_delivers {u v : LogicalUnit} {i : Instr} (hu : emitInstr u = some i) (hw : i.wellFormed = true)
    (hv : echoUnit u = some v) :
    ∃ opcode p, Emits i opcode p ∧ ∀ (len7 : BitVec 7) (s : State), frameComplete len7 s = true →
      framePay len7 s = p → s.ft.chunks = [] → exec (finalKind opcode len7) s = .next (afterFrame len7 s v s.ft) := by
  match u, hu, hv with
  | .continuation (some (.text _)), rfl, rfl =>
    obtain ⟨hlength, hvalid⟩ := wellFormed_text hw
    exact ⟨_, _, emits_emitReasmText hlength, fun _ _ => textF_delivers hvalid⟩
  | .continuation (some (.binary _)), rfl, rfl =>
    exact ⟨_, _, emits_emitReasmBin (of_decide_eq_true hw), fun _ _ => binF_delivers⟩
  | .text _, rfl, rfl =>
    obtain ⟨hlength, hvalid⟩ := wellFormed_text hw
    exact ⟨_, _, emits_emitText hlength, fun _ _ => textF_delivers hvalid⟩
  | .binary _, rfl, rfl => exact ⟨_, _, emits_emitBin (of_decide_eq_true hw), fun _ _ => binF_delivers⟩
  | .close status, rfl, rfl => exact ⟨_, _, emits_emitClose status, fun _ _ hc hp _ => closeF_delivers hc hp⟩
  | .ping _, rfl, rfl =>
    exact ⟨_, _, emits_emitPong (of_decide_eq_true hw), fun _ _ hc hp _ => pongF_delivers hc hp⟩

/-- Settles O46: the instruction emits one frame, whatever the state; as it is the frame is unmasked, and masked it is
read back whole and delivers its unit. -/
theorem echoedFrameDecodes : Obligations.EchoedFrameDecodes := by
  unfold Obligations.EchoedFrameDecodes
  intro s u v i bytes key rest hu hw hv hexec hsize hempty
  obtain ⟨opcode, p, hemits, hdelivers⟩ := echo_delivers hu hw hv
  have hbytes : emittedFrame opcode p = bytes := by
    rw [hemits.frame] at hexec
    have hemitted := congrArg State.emitted (Host.Outcome.next.inj hexec)
    exact Option.some.inj (Option.some.inj hemitted)
  subst hbytes
  refine ⟨step_emittedFrame hemits.u64 (by omega), fun hp => ?_⟩
  obtain ⟨s1, hstep, hft, hcomplete, hpay, hend⟩ := step_echoFrame hemits.u64 hsize hp
  rw [hstep, hdelivers _ s1 hcomplete hpay (by rw [hft, hempty])]
  exact ⟨_, rfl, rfl, hft, hend⟩

end Sys2Proof.Machine
end

section
/-! Statements of 41_data_frames.md and 20_memory.md: TEXT.N and CONT.F on a complete frame (R112, R114), a tracker
write beyond the capacity (R49), the refusals of an instruction, and which instructions write FT (R110, R117). -/

namespace Sys2Proof.Machine

/-- Settles O22: an Empty tracker is started, any other is appended to. -/
theorem textNStartsOrAppends : Obligations.TextNStartsOrAppends := by
  unfold Obligations.TextNStartsOrAppends
  intro len7 s hc ft ha
  rw [exec_complete rfl hc, dispatchRule, atDispatch_ft, atDispatch_pay]
  by_cases hempty : s.ft.chunks = []
  · have hft : s.ft.startText (framePay len7 s) = ft := (if_pos hempty).symm
    rw [if_pos (s.ft.isEmpty_iff.2 hempty), hft]
    exact ftWrite_atDispatch ha _
  · have hft : s.ft.append (framePay len7 s) = ft := (if_neg hempty).symm
    rw [if_neg (mt s.ft.isEmpty_iff.1 hempty), hft]
    exact ftWrite_atDispatch ha _

/-- Settles O24: the tracker is tested, then the shape, and only text is checked, as a whole message. -/
theorem contFCompletesTheMessage : Obligations.ContFCompletesTheMessage := by
  unfold Obligations.ContFCompletesTheMessage
  intro len7 s hc m drained
  rw [exec_complete rfl hc, dispatchRule, atDispatch_ft, atDispatch_pay]
  refine ⟨fun hempty => ?_, fun hopen hshape hvalid => ?_, fun hopen hshape hinvalid => ?_, fun hopen hshape => ?_⟩
  · rw [if_pos (s.ft.isEmpty_iff.2 hempty), deliver_atDispatch_same]
  all_goals rw [if_neg (mt s.ft.isEmpty_iff.1 hopen), hshape]
  · exact (if_pos hvalid).trans (deliver_atDispatch len7 s _ drained)
  · exact (if_neg (ne_true_of_eq_false hinvalid)).trans (deliver_atDispatch_same len7 s _)
  · exact deliver_atDispatch len7 s _ drained

/-- A tracker write beyond the capacity (20_memory.md R49). -/
theorem ftWrite_refused {len7 : BitVec 7} {s : State} {ft : Tracker} (ha : admits s.params ft = false)
    (k : State → Result) : ftWrite ft (s.atDispatch len7) k = .refused .ftCapacity := by
  rw [ftWrite_eq, atDispatch_params, ha]
  rfl

/-- The instruction writes a chunk to FT from the tracker `ft`: TEXT.N and BIN.N always, CONT.N in a message only
(41_data_frames.md R111 to R113). -/
def writesChunk (i : Instr) (ft : Tracker) : Prop :=
  ∃ len7, (i = .contN len7 ∧ ft.isEmpty = false) ∨ i = .textN len7 ∨ i = .binN len7

/-- What a DISPATCH rule can do with FT: leave it alone and deliver, write a chunk, or drain it for a completed message
(R110, R117). -/
theorem dispatchRule_cases (i : Instr) (s : State) :
    (∃ u, dispatchRule i s = deliver u s) ∨
    (writesChunk i s.ft ∧ ∃ ft, ft.isEmpty = false ∧
      dispatchRule i s = ftWrite ft s (deliver (.continuation none))) ∨
    ((∃ len7, i = .contF len7) ∧ s.ft.isEmpty = false ∧
      ∃ m, dispatchRule i s = deliver (.continuation (some m)) (s.setFt s.ft.drain)) := by
  cases i <;> simp only [dispatchRule]
  case contN len7 =>
    cases hempty : s.ft.isEmpty
    case true => exact .inl ⟨_, rfl⟩
    case false => exact .inr (.inl ⟨⟨len7, .inl ⟨rfl, hempty⟩⟩, _, by simp [Tracker.append], rfl⟩)
  case textN len7 =>
    cases s.ft.isEmpty
    case true => exact .inr (.inl ⟨⟨len7, .inr (.inl rfl)⟩, _, by simp [Tracker.startText], rfl⟩)
    case false => exact .inr (.inl ⟨⟨len7, .inr (.inl rfl)⟩, _, by simp [Tracker.append], rfl⟩)
  case binN len7 => exact .inr (.inl ⟨⟨len7, .inr (.inr rfl)⟩, _, by simp [Tracker.resetBinary], rfl⟩)
  case contF len7 =>
    cases hempty : s.ft.isEmpty
    case true => exact .inl ⟨_, rfl⟩
    case false =>
      cases s.ft.shape
      case binary => exact .inr (.inr ⟨⟨len7, rfl⟩, rfl, _, rfl⟩)
      case text =>
        cases utf8Valid (s.ft.concat ++ s.pay)
        case true => exact .inr (.inr ⟨⟨len7, rfl⟩, rfl, _, rfl⟩)
        case false => exact .inl ⟨_, rfl⟩
  all_goals
    refine .inl ?_
    repeat' split
    all_goals exact ⟨_, rfl⟩

/-- An ENCODE is refused for a ping of more than 125 bytes only (43_encoder.md R166). -/
theorem exec_emit_refused {i : Instr} {s : State} {r : Refusal} (he : isEmit i = true) (h : exec i s = .refused r) :
    r = .pingTooLong ∧ ∃ p, i = .emitPong p ∧ 125 < p.length := by
  cases i
  case emitPong p =>
    simp only [exec, execEmitPong] at h
    split at h
    case isTrue => cases h
    case isFalse hlong =>
      cases h
      exact ⟨rfl, p, rfl, Nat.lt_of_not_le hlong⟩
  case emitText | emitBin | emitReasmText | emitReasmBin | emitClose => cases h
  all_goals cases he

/-- A DISPATCH rule is refused for a chunk beyond the capacity only (20_memory.md R49). -/
theorem dispatchRule_refused {i : Instr} {s : State} {r : Refusal} (h : dispatchRule i s = .refused r) :
    r = .ftCapacity ∧ writesChunk i s.ft ∧ ∃ ft, admits s.params ft = false := by
  rcases dispatchRule_cases i s with ⟨u, e⟩ | ⟨hw, ft, -, e⟩ | ⟨-, -, m, e⟩ <;> rw [e] at h
  case inr.inl =>
    rw [ftWrite_eq] at h
    split at h
    case isTrue => cases h
    case isFalse hfull =>
      cases h
      exact ⟨rfl, hw, ft, eq_false_of_ne_true hfull⟩
  all_goals cases h

/-- A received instruction is refused for a tracker write beyond the capacity only (20_memory.md R49). -/
theorem exec_received_refused {i : Instr} {s : State} {r : Refusal} (he : isEmit i = false)
    (h : exec i s = .refused r) :
    r = .ftCapacity ∧ writesChunk i s.ft ∧ ∃ ft, admits s.params ft = false := by
  cases hk : kindLen7 i with
  | none =>
    rw [exec_headerViolation hk he] at h
    cases h
  | some len7 =>
    rw [exec_frameKind hk] at h
    rcases readFrame_cases len7 s (dispatchRule i) with ⟨-, e⟩ | ⟨-, e⟩ | ⟨-, e⟩ | ⟨-, e⟩ <;> rw [e] at h
    case inr.inr.inr =>
      simpa using dispatchRule_refused h
    all_goals cases h

/-- Settles O57: a received instruction is refused for the capacity, an emitted one for the length. -/
theorem onlyNamedRefusals : Obligations.OnlyNamedRefusals := by
  unfold Obligations.OnlyNamedRefusals
  intro i s r h
  cases he : isEmit i with
  | true => exact .inr (exec_emit_refused he h)
  | false =>
    obtain ⟨hr, ⟨len7, hi⟩, -⟩ := exec_received_refused he h
    exact .inl ⟨hr, len7, hi.imp_left And.left⟩

/-- What an instruction that answers a next state can have done with FT (41_data_frames.md R110, R117). -/
theorem exec_ft_cases {i : Instr} {s t : State} (h : exec i s = .next t) :
    t.ft = s.ft ∨
    (writesChunk i s.ft ∧ t.ft.isEmpty = false ∧ t.outcome = some (.ok (.continuation none))) ∨
    ((∃ len7, i = .contF len7) ∧ s.ft.isEmpty = false ∧ t.ft.isEmpty = true ∧
      ∃ m, t.outcome = some (.ok (.continuation (some m)))) := by
  rcases exec_next_cases h with ⟨len7, hk, ⟨-, e⟩ | ⟨-, e⟩ | ⟨-, e⟩ | ⟨hc, -⟩⟩ | ⟨-, -, rfl⟩ | ⟨-, r, rfl⟩
  case inr.inl | inr.inr => exact .inl rfl
  case inl.inr.inr.inr =>
    rw [exec_complete hk hc] at h
    have hcases := dispatchRule_cases i (s.atDispatch len7)
    rw [atDispatch_ft] at hcases
    rcases hcases with ⟨u, e⟩ | ⟨hw, ft, hft, e⟩ | ⟨hi, hopen, m, e⟩ <;> rw [e] at h
    case inl =>
      cases h
      exact .inl (by simp)
    case inr.inl =>
      rw [ftWrite_eq] at h
      split at h
      case isTrue =>
        cases h
        exact .inr (.inl ⟨hw, by simpa using hft, by simp⟩)
      case isFalse => cases h
    case inr.inr =>
      cases h
      exact .inr (.inr ⟨hi, hopen, by simp [Tracker.drain], m, by simp⟩)
  all_goals
    obtain ⟨-, hft, -⟩ := raiseIOFailure_next e
    exact .inl (by simpa using hft)

/-- Settles O50: a write that leaves FT non-Empty is a chunk's, one that leaves it Empty is a completed message's. -/
theorem onlyTextNAndBinNLeaveEmpty : Obligations.OnlyTextNAndBinNLeaveEmpty := by
  unfold Obligations.OnlyTextNAndBinNLeaveEmpty
  intro i s t h
  rcases exec_ft_cases h with hft | ⟨⟨len7, hi⟩, hft, -⟩ | ⟨⟨len7, hi⟩, hopen, hft, m, hm⟩
  · rw [hft]
    exact ⟨fun h1 h2 => absurd h1 (ne_true_of_eq_false h2), fun h1 h2 => absurd h2 (ne_true_of_eq_false h1)⟩
  · refine ⟨fun hempty _ => ⟨len7, hi.resolve_left fun hcont => ?_⟩, fun _ h2 => absurd h2 (ne_true_of_eq_false hft)⟩
    exact absurd hempty (ne_true_of_eq_false hcont.2)
  · exact ⟨fun hempty _ => absurd hempty (ne_true_of_eq_false hopen), fun _ _ => ⟨len7, m, hi, hm⟩⟩

/-- Settles O52: the instructions that write FT return a Continuation unit. -/
theorem closeLeavesTheTracker : Obligations.CloseLeavesTheTracker := by
  unfold Obligations.CloseLeavesTheTracker
  intro i s t status _ h hclose
  rcases exec_ft_cases h with hft | ⟨-, -, ho⟩ | ⟨-, -, -, m, ho⟩
  · exact hft
  all_goals
    rw [ho] at hclose
    cases hclose

/-- Settles O51: the outcome is an IOFailure only where a field of the frame is cut short. -/
theorem ioFailureLeavesTheTracker : Obligations.IOFailureLeavesTheTracker := by
  unfold Obligations.IOFailureLeavesTheTracker
  intro i s t c he h ho hc
  rcases exec_next_cases h with ⟨len7, -, ⟨-, e⟩ | ⟨-, e⟩ | ⟨-, e⟩ | ⟨-, u, ft, rfl⟩⟩ | ⟨-, -, rfl⟩ | ⟨he', -⟩
  case inr.inl | inl.inr.inr.inr => cases ho
  case inr.inr =>
    rw [he] at he'
    cases he'
  all_goals
    obtain ⟨-, hft, hcur⟩ := raiseIOFailure_next e
    exact ⟨by simpa using hft, by simpa using hcur (by simpa using hc)⟩

/-- With the default parameters a PARSE is not refused for the capacity (R49). -/
theorem beginParse_ne_ftCapacity {s : State} (hp : s.params = Params.default) (buf : Memory) (cur0 : Nat) :
    beginParse exec buf cur0 s ≠ .refused .ftCapacity := by
  rcases beginParse_cases buf cur0 s with ⟨-, e⟩ | ⟨-, -, e⟩ | ⟨-, -, -, e⟩ | ⟨-, -, e⟩ <;> rw [e]
  case inr.inr.inr =>
    intro h
    obtain ⟨-, -, ft, hfull⟩ := exec_received_refused (isEmit_decodeHeader _) h
    have hparams : (s.headerRead buf cur0).params = Params.default := hp
    rw [hparams, admits_default] at hfull
    cases hfull
  all_goals exact nofun

/-- An ENCODE is not refused for the capacity. -/
theorem beginEncode_ne_ftCapacity (u : LogicalUnit) (s : State) : beginEncode exec u s ≠ .refused .ftCapacity := by
  cases hu : emitInstr u with
  | none =>
    rw [beginEncode_of_emitInstr_none hu]
    exact nofun
  | some i =>
    rw [beginEncode_of_emitInstr_some hu]
    exact fun h => nomatch (exec_emit_refused (isEmit_of_emitInstr hu) h).1

/-- Settles O27: a chunk beyond the capacity is refused; the default parameters bound no chunk of a PARSE. -/
theorem capacityOverflowIsRefused : Obligations.CapacityOverflowIsRefused := by
  unfold Obligations.CapacityOverflowIsRefused
  refine ⟨fun len7 s hc => ⟨fun hopen ha => ?_, fun hempty ha => ?_, fun ha => ?_⟩, fun s hp => ?_⟩
  · have hnot := mt s.ft.isEmpty_iff.1 hopen
    rw [exec_complete rfl hc, exec_complete rfl hc, dispatchRule, dispatchRule, atDispatch_ft, atDispatch_pay,
      if_neg hnot, if_neg hnot]
    exact ⟨ftWrite_refused ha _, ftWrite_refused ha _⟩
  · rw [exec_complete rfl hc, dispatchRule, atDispatch_ft, atDispatch_pay, if_pos (s.ft.isEmpty_iff.2 hempty)]
    exact ftWrite_refused ha _
  · rw [exec_complete rfl hc, dispatchRule, atDispatch_pay]
    exact ftWrite_refused ha _
  · cases hpending : s.pending with
    | nil =>
      rw [idleMachineStaysAsItIs s hpending]
      exact nofun
    | cons r rest =>
      have hdefault : (s.setPending rest).params = Params.default := hp
      rw [step_of_pending hpending]
      cases r with
      | parse buf cur0 => exact beginParse_ne_ftCapacity hdefault buf cur0
      | parseNext =>
        rw [serveOne]
        split
        · exact beginParse_ne_ftCapacity hdefault _ _
        · exact nofun
      | retry buf => exact beginParse_ne_ftCapacity hdefault buf _
      | encode u => exact beginEncode_ne_ftCapacity u _
      | reset => exact nofun

end Sys2Proof.Machine
end

section
/-! Statements of 42_control_frames.md and 60_exceptions.md: the control and illegal kinds ignore FT (R137), and the
causes of Close(ProtocolError) (R182). -/

namespace Sys2Proof.Machine

/-- Writing back the tracker a state has changes nothing. -/
theorem State.setFt_self (s : State) : s.setFt s.ft = s := rfl

/-- What runs after a frame is read takes FT along and looks at nothing in it. -/
def IgnoresFt (d : State → Result) : Prop :=
  ∀ (s : State) (ft : Tracker), d (s.setFt ft) = (d s).mapState (·.setFt ft)

theorem deliver_ignoresFt (u : LogicalUnit) : IgnoresFt (deliver u) := fun _ _ => rfl

theorem raiseIOFailure_ignoresFt (c : IOCause) : IgnoresFt (raiseIOFailure c) := fun _ _ => rfl

/-- Reading a frame ignores FT where its DISPATCH rule does. -/
theorem readFrame_ignoresFt (len7 : BitVec 7) {d : State → Result} (hd : IgnoresFt d) :
    IgnoresFt fun s => readFrame len7 s d := by
  intro s ft
  have hext : extCut len7 (s.setFt ft) = extCut len7 s := rfl
  have hkey : keyCut len7 (s.setFt ft) = keyCut len7 s := rfl
  have hpay : payCut len7 (s.setFt ft) = payCut len7 s := rfl
  show readFrame len7 (s.setFt ft) d = (readFrame len7 s d).mapState _
  rw [readFrame_eq, readFrame_eq, hext, hkey, hpay]
  cases extCut len7 s
  case true => exact raiseIOFailure_ignoresFt .extlen s ft
  cases keyCut len7 s
  case true => exact raiseIOFailure_ignoresFt .mask (s.lenRead len7) ft
  cases payCut len7 s
  case true => exact raiseIOFailure_ignoresFt .payload (s.keyRead len7) ft
  case false => exact hd (s.atDispatch len7) ft

/-- The DISPATCH rules of the control kinds test the payload alone (42_control_frames.md R130 to R133). -/
theorem dispatchRule_ignoresFt {i : Instr} {len7 : BitVec 7} (hi : i ∈ controlKinds len7) :
    IgnoresFt (dispatchRule i) := by
  intro s ft
  simp only [controlKinds, List.mem_cons, List.not_mem_nil, or_false] at hi
  rcases hi with rfl | rfl | rfl
  · simp only [dispatchRule, State.setFt_paylen, State.setFt_pay, apply_ite (Result.mapState _),
      deliver_ignoresFt _ s ft]
    rfl
  · by_cases hlen : s.paylen.toNat ≤ 125 <;> simp [dispatchRule, hlen, deliver_ignoresFt _ s ft]
  · exact deliver_ignoresFt _ s ft

/-- The control and illegal kinds read a frame and ignore FT. -/
theorem exec_ignoresFt {i : Instr} {len7 : BitVec 7} (hi : i ∈ controlKinds len7 ++ illegalKinds len7) :
    IgnoresFt (exec i) := by
  intro s ft
  rcases List.mem_append.1 hi with hcontrol | hillegal
  · have hk : kindLen7 i = some len7 :=
      (mem_frameKinds_iff i len7).1 (List.mem_append_left _ (List.mem_append_right _ hcontrol))
    rw [exec_frameKind hk, exec_frameKind hk]
    exact readFrame_ignoresFt len7 (dispatchRule_ignoresFt hcontrol) s ft
  · rw [exec_of_mem_illegalKinds hillegal, exec_of_mem_illegalKinds hillegal]
    exact readFrame_ignoresFt len7 (deliver_ignoresFt _) s ft

/-- Settles O34: run with the tracker it has, such an instruction puts that tracker back. -/
theorem controlFramesIgnoreTheTracker : Obligations.ControlFramesIgnoreTheTracker := by
  unfold Obligations.ControlFramesIgnoreTheTracker
  intro len7 s ft i hi
  refine ⟨exec_ignoresFt hi s ft, fun t ht => ?_⟩
  have hself := exec_ignoresFt hi s s.ft
  rw [State.setFt_self, ht] at hself
  have hput : Host.Outcome.next t = .next (t.setFt s.ft) := hself
  rw [Host.Outcome.next.inj hput, State.setFt_ft]

/-- A received instruction is a header violation exactly when its header has an RSV bit set or MASK clear (R92). -/
theorem kindLen7_eq_none_iff {i : Instr} (he : isEmit i = false) :
    kindLen7 i = none ↔ (Header.ofInstr i).rsv ≠ 0 ∨ (Header.ofInstr i).masked = false := by
  rw [kindLen7_eq he]
  by_cases hrsv : (Header.ofInstr i).rsv = 0 <;> cases (Header.ofInstr i).masked <;> simp [hrsv]

/-- A received instruction returns Close(ProtocolError) for a header violation, or by the DISPATCH rule of its complete
frame (R182). -/
theorem exec_protocolError_iff {i : Instr} (he : isEmit i = false) (s : State) :
    Result.delivers (.close .protocolError) (exec i s) ↔ kindLen7 i = none ∨
      ∃ len7, frameComplete len7 s = true ∧ kindLen7 i = some len7 ∧
        (dispatchRule i (s.atDispatch len7)).delivers (.close .protocolError) := by
  cases hk : kindLen7 i with
  | none =>
    rw [exec_headerViolation hk he, delivers_deliver]
    exact iff_of_true rfl (.inl rfl)
  | some len7 =>
    rw [exec_frameKind hk, readFrame_delivers_iff]
    constructor
    · exact fun ⟨hc, hd⟩ => .inr ⟨len7, hc, rfl, hd⟩
    · rintro (hnone | ⟨_, hc, hkind, hd⟩)
      · cases hnone
      · cases hkind
        exact ⟨hc, hd⟩

/-- The Close-Frame Validator rejects a code that is not allowed, and an invalid reason (42_control_frames.md R131). -/
theorem closeVerdict_eq_protocolError_iff (p : Bytes) :
    closeVerdict p = .protocolError ↔ be16 p ∉ closeAllow ∨ utf8Valid (p.drop 2) = false := by
  rw [closeVerdict_eq_ite]
  by_cases hcode : be16 p ∈ closeAllow <;> cases utf8Valid (p.drop 2) <;> simp [hcode]

/-- The DISPATCH rule of CLOSE.F rejects by the length, the code and the reason (R130, R131). -/
theorem closeF_protocolError_iff (len7 : BitVec 7) (s : State) :
    (dispatchRule (.closeF len7) s).delivers (.close .protocolError) ↔
      (s.paylen.toNat = 1 ∨ 125 < s.paylen.toNat) ∨
      2 ≤ s.paylen.toNat ∧ s.paylen.toNat ≤ 125 ∧ (be16 s.pay ∉ closeAllow ∨ utf8Valid (s.pay.drop 2) = false) := by
  rw [dispatchRule, ← closeVerdict_eq_protocolError_iff]
  by_cases hzero : s.paylen.toNat = 0
  · simp [hzero]
  · by_cases hlen : 2 ≤ s.paylen.toNat ∧ s.paylen.toNat ≤ 125
    · have hnot : ¬ (s.paylen.toNat = 1 ∨ 125 < s.paylen.toNat) := by omega
      simp [hzero, hlen, hnot]
    · have hbad : s.paylen.toNat = 1 ∨ 125 < s.paylen.toNat := by omega
      simp [hzero, hlen, hbad]

/-- The frame kinds whose DISPATCH rule finds a protocol error (R182, causes 3 to 13). -/
theorem dispatchRule_protocolError_iff (i : Instr) (len7 : BitVec 7) (s : State) :
    kindLen7 i = some len7 ∧ (dispatchRule i s).delivers (.close .protocolError) ↔
      i = .contN len7 ∧ s.ft.isEmpty = true ∨
      i = .contF len7 ∧ s.ft.isEmpty = true ∨
      i = .textF len7 ∧ s.ft.isEmpty = false ∨
      i = .binF len7 ∧ s.ft.isEmpty = false ∨
      i = .closeF len7 ∧ (s.paylen.toNat = 1 ∨ 125 < s.paylen.toNat) ∨
      i = .closeF len7 ∧ 2 ≤ s.paylen.toNat ∧ s.paylen.toNat ≤ 125 ∧ be16 s.pay ∉ closeAllow ∨
      i = .closeF len7 ∧ 2 ≤ s.paylen.toNat ∧ s.paylen.toNat ≤ 125 ∧ utf8Valid (s.pay.drop 2) = false ∨
      i = .pingF len7 ∧ 125 < s.paylen.toNat ∨
      i ∈ illegalKinds len7 := by
  simp only [illegalKinds, fragmentedControlKinds, reservedNonFinalKinds, reservedFinalKinds]
  cases i
  case contF =>
    by_cases hempty : s.ft.chunks = [] <;> cases hshape : s.ft.shape <;> simp [kindLen7, dispatchRule, hempty, hshape]
  case closeF =>
    simp [kindLen7, closeF_protocolError_iff, and_or_left, or_assoc]
  all_goals simp [kindLen7, dispatchRule]

/-- Settles O53: the header violations are causes 1 and 2, the DISPATCH rules of complete frames the others. -/
theorem causesOfProtocolError : Obligations.CausesOfProtocolError := by
  unfold Obligations.CausesOfProtocolError
  intro i s t he h
  rw [← delivers_next, ← h, exec_protocolError_iff he, kindLen7_eq_none_iff he, or_assoc]
  simp only [dispatchRule_protocolError_iff, atDispatch_ft, atDispatch_pay, atDispatch_paylen_toNat]

end Sys2Proof.Machine
end

section
/-! The statement of 00_scope.md about UTF-8 (R12): the check reads one sequence of the table after another. The table's
rows are the check's four lengths, and the first bytes tell the lengths apart. -/

namespace Sys2Proof.Machine

/-- The one-byte row of the table. -/
theorem utf8Sequence_one (a : Byte) : utf8Sequence [a] = utf8One a := by
  simp [utf8Sequence, utf8Table, fitsRow, utf8One, inRange]

/-- The two-byte row of the table. -/
theorem utf8Sequence_two (a b : Byte) : utf8Sequence [a, b] = utf8Two a b := by
  simp [utf8Sequence, utf8Table, fitsRow, utf8Two, isTail, inRange]

/-- The three-byte rows of the table. -/
theorem utf8Sequence_three (a b c : Byte) : utf8Sequence [a, b, c] = (utf8ThreeLead a b && isTail c) := by
  rw [Bool.eq_iff_iff]
  simp only [utf8Sequence, utf8Table, fitsRow, utf8ThreeLead, isTail, inRange, List.any_cons, List.any_nil,
    Bool.or_eq_true, Bool.and_eq_true, decide_eq_true_eq, Bool.false_eq_true, and_false, and_true, or_false, false_or]
  omega

/-- The four-byte rows of the table. -/
theorem utf8Sequence_four (a b c d : Byte) :
    utf8Sequence [a, b, c, d] = (utf8FourLead a b && isTail c && isTail d) := by
  rw [Bool.eq_iff_iff]
  simp only [utf8Sequence, utf8Table, fitsRow, utf8FourLead, isTail, inRange, List.any_cons, List.any_nil,
    Bool.or_eq_true, Bool.and_eq_true, decide_eq_true_eq, Bool.false_eq_true, and_false, and_true, or_false, false_or]
  omega

/-- No row of the table has five bytes or more. -/
theorem utf8Sequence_five (a b c d e : Byte) (p : Bytes) : utf8Sequence (a :: b :: c :: d :: e :: p) = false := by
  simp [utf8Sequence, utf8Table, fitsRow]

/-- The first byte of a two-byte sequence is no one-byte sequence. -/
theorem utf8Two_exclusive {a b : Byte} (h : utf8Two a b = true) : utf8One a = false := by
  simp only [utf8Two, utf8One, inRange, Bool.and_eq_true, Bool.and_eq_false_iff, decide_eq_true_eq,
    decide_eq_false_iff_not] at h ⊢
  omega

/-- The first bytes of a three-byte sequence are no shorter sequence. -/
theorem utf8ThreeLead_exclusive {a b : Byte} (h : utf8ThreeLead a b = true) :
    utf8One a = false ∧ utf8Two a b = false := by
  simp only [utf8ThreeLead, utf8Two, utf8One, inRange, Bool.or_eq_true, Bool.and_eq_true, Bool.and_eq_false_iff,
    decide_eq_true_eq, decide_eq_false_iff_not] at h ⊢
  omega

/-- The first bytes of a four-byte sequence are no shorter sequence. -/
theorem utf8FourLead_exclusive {a b : Byte} (h : utf8FourLead a b = true) :
    utf8One a = false ∧ utf8Two a b = false ∧ utf8ThreeLead a b = false := by
  simp only [utf8FourLead, utf8ThreeLead, utf8Two, utf8One, inRange, Bool.or_eq_true, Bool.and_eq_true,
    Bool.or_eq_false_iff, Bool.and_eq_false_iff, decide_eq_true_eq, decide_eq_false_iff_not] at h ⊢
  omega

/-- The check reads a well-formed sequence at the front, whatever follows. -/
theorem utf8Valid_append_of_sequence {p : Bytes} (hp : utf8Sequence p = true) (s : Bytes) :
    utf8Valid (p ++ s) = utf8Valid s := by
  match p, hp with
  | [], hp => cases hp
  | [a], hp =>
    rw [utf8Sequence_one] at hp
    exact utf8Valid_one s hp
  | [a, b], hp =>
    rw [utf8Sequence_two] at hp
    exact utf8Valid_two s (utf8Two_exclusive hp) hp
  | [a, b, c], hp =>
    rw [utf8Sequence_three] at hp
    obtain ⟨h1, h2⟩ := utf8ThreeLead_exclusive (Bool.and_eq_true_iff.1 hp).1
    exact utf8Valid_three s h1 h2 hp
  | [a, b, c, d], hp =>
    rw [utf8Sequence_four] at hp
    obtain ⟨h1, h2, h3⟩ := utf8FourLead_exclusive (Bool.and_eq_true_iff.1 (Bool.and_eq_true_iff.1 hp).1).1
    refine (utf8Valid_four d s h1 h2 (by rw [h3]; rfl)).trans ?_
    rw [hp, Bool.true_and]
  | a :: b :: c :: d :: e :: p, hp =>
    rw [utf8Sequence_five] at hp
    cases hp

/-- A concatenation of well-formed sequences is valid. -/
theorem utf8Valid_flatten {parts : List Bytes} (h : ∀ p ∈ parts, utf8Sequence p = true) :
    utf8Valid parts.flatten = true := by
  induction parts with
  | nil => rw [List.flatten_nil, utf8Valid]
  | cons p parts ih =>
    rw [List.flatten_cons, utf8Valid_append_of_sequence (h p List.mem_cons_self)]
    exact ih fun q hq => h q (List.mem_cons_of_mem p hq)

/-- The bytes are a concatenation of well-formed sequences (R12). -/
def utf8Parts (t : Bytes) : Prop := ∃ parts : List Bytes, (∀ p ∈ parts, utf8Sequence p = true) ∧ parts.flatten = t

theorem utf8Parts_append {p s : Bytes} (hp : utf8Sequence p = true) (hs : utf8Parts s) : utf8Parts (p ++ s) := by
  obtain ⟨parts, hparts, rfl⟩ := hs
  exact ⟨p :: parts, List.forall_mem_cons.2 ⟨hp, hparts⟩, rfl⟩

/-- Valid bytes are cut into sequences where the check cuts them. -/
theorem utf8Parts_of_valid {t : Bytes} (h : utf8Valid t = true) : utf8Parts t := by
  induction t using utf8Valid.induct with
  | case1 => exact ⟨[], by simp⟩
  | case2 a s h1 ih =>
    rw [utf8Valid_one s h1] at h
    exact utf8Parts_append (p := [a]) (by rw [utf8Sequence_one, h1]) (ih h)
  | case4 a h1 b s h2 ih =>
    rw [utf8Valid_two s (eq_false_of_ne_true h1) h2] at h
    exact utf8Parts_append (p := [a, b]) (by rw [utf8Sequence_two, h2]) (ih h)
  | case6 a h1 b h2 c s h3 ih =>
    rw [utf8Valid_three s (eq_false_of_ne_true h1) (eq_false_of_ne_true h2) h3] at h
    exact utf8Parts_append (p := [a, b, c]) (by rw [utf8Sequence_three, h3]) (ih h)
  | case8 a h1 b h2 c h3 d s ih =>
    rw [utf8Valid_four d s (eq_false_of_ne_true h1) (eq_false_of_ne_true h2) (eq_false_of_ne_true h3)] at h
    obtain ⟨h4, hs⟩ := Bool.and_eq_true_iff.1 h
    exact utf8Parts_append (p := [a, b, c, d]) (by rw [utf8Sequence_four, h4]) (ih hs)
  | case3 a h1 => simp [utf8Valid, h1] at h
  | case5 a h1 b h2 => simp [utf8Valid, h1, h2] at h
  | case7 a h1 b h2 c h3 => simp [utf8Valid, h1, h2, h3] at h

/-- Settles O45: the check reads off the sequences of its own cuts, and reads through any others. -/
theorem utfCheckIsTheTable : Obligations.UtfCheckIsTheTable := by
  unfold Obligations.UtfCheckIsTheTable
  intro t
  refine ⟨utf8Parts_of_valid, ?_⟩
  rintro ⟨parts, hparts, rfl⟩
  exact utf8Valid_flatten hparts

end Sys2Proof.Machine
end

section
/-! The statement of 10_state.md about the invariant (R21, R30): every step keeps it. A DISPATCH rule delivers
well-formed units only, and the cursor of an outcome lies between CUR0 and BUFLEN. -/

namespace Sys2Proof.Machine

/-- Every unit the result returns is well formed (R30). -/
def Result.wfUnits (r : Result) : Prop := ∀ u, r.delivers u → u.wf = true

theorem deliver_wfUnits {u : LogicalUnit} (h : u.wf = true) (s : State) : Result.wfUnits (deliver u s) := by
  intro v hv
  rwa [← (delivers_deliver v u s).1 hv]

theorem ftWrite_wfUnits (ft : Tracker) (s : State) : Result.wfUnits (ftWrite ft s (deliver (.continuation none))) := by
  intro v hv
  rw [← ((delivers_ftWrite v _ ft s).1 hv).2]
  rfl

theorem ite_wfUnits {c : Prop} [Decidable c] {r r' : Result} (h : c → r.wfUnits) (h' : ¬ c → r'.wfUnits) :
    Result.wfUnits (if c then r else r') := by
  split
  case isTrue hc => exact h hc
  case isFalse hc => exact h' hc

/-- A DISPATCH rule checks text before it returns it, and the length of a ping (41_data_frames.md R114, R115,
42_control_frames.md R132). -/
theorem dispatchRule_wfUnits (i : Instr) {s : State} (hlen : s.pay.length = s.paylen.toNat) :
    Result.wfUnits (dispatchRule i s) := by
  have hclose (status : Status) : Result.wfUnits (deliver (.close status) s) := deliver_wfUnits rfl s
  cases i <;> simp only [dispatchRule]
  case contN => exact ite_wfUnits (fun _ => hclose _) fun _ => ftWrite_wfUnits _ s
  case textN => exact ite_wfUnits (fun _ => ftWrite_wfUnits _ s) fun _ => ftWrite_wfUnits _ s
  case binN => exact ftWrite_wfUnits _ s
  case contF =>
    refine ite_wfUnits (fun _ => hclose _) fun _ => ?_
    cases s.ft.shape with
    | text =>
      refine ite_wfUnits (fun hvalid => deliver_wfUnits ?_ _) fun _ => hclose _
      exact hvalid
    | binary => exact deliver_wfUnits rfl _
  case textF =>
    refine ite_wfUnits (fun _ => hclose _) fun _ => ite_wfUnits (fun hvalid => deliver_wfUnits ?_ s) fun _ => hclose _
    exact hvalid
  case binF => exact ite_wfUnits (fun _ => hclose _) fun _ => deliver_wfUnits rfl s
  case closeF => exact ite_wfUnits (fun _ => hclose _) fun _ => ite_wfUnits (fun _ => hclose _) fun _ => hclose _
  case pingF =>
    refine ite_wfUnits (fun hle => deliver_wfUnits ?_ s) fun _ => hclose _
    rw [← hlen] at hle
    exact decide_eq_true hle
  case pongF => exact deliver_wfUnits rfl s
  all_goals exact hclose _

/-- A delivered frame returns a well-formed unit. -/
theorem wf_of_afterFrame {i : Instr} {len7 : BitVec 7} {s : State} {u : LogicalUnit} {ft : Tracker}
    (hk : kindLen7 i = some len7) (hc : frameComplete len7 s = true) (h : exec i s = .next (afterFrame len7 s u ft)) :
    u.wf = true := by
  rw [exec_complete hk hc] at h
  have hlen : (s.atDispatch len7).pay.length = (s.atDispatch len7).paylen.toNat := by simp
  refine dispatchRule_wfUnits i hlen u ?_
  rw [h]
  rfl

/-- What an instruction leaves of CUR and the outcome, from a state that meets the invariant. -/
theorem exec_cursor_outcome {i : Instr} {s t : State} (hs : MachineInv s) (h : exec i s = .next t) :
    (s.cur0 ≤ t.cur ∧ t.cur ≤ s.buf.size) ∧ ∀ r, t.outcome = some r → r.wf = true := by
  obtain ⟨-, -, hforward, hinBuffer, houtcome, -⟩ := hs
  rcases exec_next_cases h with ⟨len7, hk, ⟨-, e⟩ | ⟨-, e⟩ | ⟨-, e⟩ | ⟨hc, u, ft, rfl⟩⟩ | ⟨-, -, rfl⟩ | ⟨-, r, rfl⟩
  case inl.inr.inr.inr =>
    have hend : frameEnd len7 s ≤ s.buf.size := of_decide_eq_true hc
    have hafter : s.cur ≤ frameEnd len7 s := by
      unfold frameEnd keyOffset
      omega
    refine ⟨⟨Nat.le_trans hforward hafter, hend⟩, ?_⟩
    rintro _ ⟨⟩
    exact wf_of_afterFrame hk hc h
  case inr.inl =>
    refine ⟨⟨hforward, hinBuffer⟩, ?_⟩
    rintro _ ⟨⟩
    rfl
  case inr.inr => exact ⟨⟨hforward, hinBuffer⟩, houtcome⟩
  all_goals
    obtain ⟨ho, -, hcur⟩ := raiseIOFailure_next e
    refine ⟨by simpa using hcur (by simpa using Nat.le_trans hforward hinBuffer), fun r hr => ?_⟩
    rw [ho] at hr
    cases hr
    rfl

/-- Every instruction keeps the invariant. -/
theorem exec_keepsInv {i : Instr} {s t : State} (hs : MachineInv s) (h : exec i s = .next t) : MachineInv t := by
  obtain ⟨hbuf, hcur0, -, hpending⟩ := exec_sameInput h
  obtain ⟨⟨hforward, hinBuffer⟩, houtcome⟩ := exec_cursor_outcome hs h
  refine ⟨?_, ?_, ?_, ?_, houtcome, ?_⟩
  · rw [hbuf]; exact hs.buf
  · rw [hbuf]; exact hs.buflen
  · rwa [hcur0]
  · rwa [hbuf]
  · rw [hpending]; exact hs.pending

/-- Every PARSE of a buffer in canonical form keeps the invariant. -/
theorem beginParse_keepsInv {buf : Memory} {cur0 : Nat} {s t : State} (hbuf : buf.wf = true) (hs : MachineInv s)
    (h : beginParse exec buf cur0 s = .next t) : MachineInv t := by
  rcases beginParse_cases buf cur0 s with ⟨-, e⟩ | ⟨-, -, e⟩ | ⟨hsize, hc, -, e⟩ | ⟨hsize, hc, e⟩ <;> rw [e] at h
  case inr.inr.inl =>
    cases h
    have hdrawn := unspecifiedCur_bounds (s := s.load buf cur0) hc
    refine ⟨hbuf, hsize, hdrawn.1, hdrawn.2, ?_, hs.pending⟩
    rintro _ ⟨⟩
    rfl
  case inr.inr.inr =>
    have hread : MachineInv (s.headerRead buf cur0) :=
      ⟨hbuf, hsize, Nat.le_add_right cur0 2, hc, hs.outcome, hs.pending⟩
    exact exec_keepsInv hread h
  all_goals cases h

/-- Every ENCODE keeps the invariant. -/
theorem beginEncode_keepsInv {u : LogicalUnit} {s t : State} (hs : MachineInv s)
    (h : beginEncode exec u s = .next t) : MachineInv t := by
  cases hu : emitInstr u with
  | none =>
    rw [beginEncode_of_emitInstr_none hu] at h
    cases h
    exact ⟨hs.buf, hs.buflen, hs.forward, hs.inBuffer, hs.outcome, hs.pending⟩
  | some i =>
    rw [beginEncode_of_emitInstr_some hu] at h
    exact exec_keepsInv hs h

/-- A connection start keeps the invariant: the kept requests are the host's. -/
theorem restart_keepsInv {s : State} (hs : MachineInv s) : MachineInv s.restart :=
  ⟨resetMeetsTheInvariant.buf, resetMeetsTheInvariant.buflen, resetMeetsTheInvariant.forward,
    resetMeetsTheInvariant.inBuffer, resetMeetsTheInvariant.outcome, hs.pending⟩

/-- Settles O48: the requests are a PARSE of a canonical buffer, an ENCODE or a reset. -/
theorem stepKeepsTheInvariant : Obligations.StepKeepsTheInvariant := by
  unfold Obligations.StepKeepsTheInvariant
  intro s t hs h
  cases hp : s.pending with
  | nil =>
    rw [idleMachineStaysAsItIs s hp] at h
    cases h
    exact hs
  | cons r rest =>
    have hrequests := hs.pending
    rw [hp] at hrequests
    obtain ⟨hr, hrest⟩ := List.forall_mem_cons.1 hrequests
    have hs' : MachineInv (s.setPending rest) :=
      ⟨hs.buf, hs.buflen, hs.forward, hs.inBuffer, hs.outcome, hrest⟩
    rw [step_of_pending hp] at h
    cases r with
    | parse buf cur0 => exact beginParse_keepsInv hr hs' h
    | parseNext =>
      rw [serveOne] at h
      split at h
      · exact beginParse_keepsInv hs'.buf hs' h
      · cases h
    | retry buf => exact beginParse_keepsInv hr hs' h
    | encode u => exact beginEncode_keepsInv hs' h
    | reset =>
      cases h
      exact restart_keepsInv hs'

end Sys2Proof.Machine
end

section
/-! The two statements that compare steps: of FT only its view is observable (10_state.md R27), and a retry leaves no
trace of the failed attempt (60_exceptions.md R188). Both follow from one simulation: a relation between states that
every operation of a PARSE keeps, so that the results agree. -/

namespace Sys2Proof.Machine

/-! The frame at the cursor is made of BUF and CUR alone (30_encoding.md R60). -/

section
variable {a b : State} (len7 : BitVec 7)

theorem keyOffset_congr (hcur : a.cur = b.cur) : keyOffset len7 a = keyOffset len7 b := by
  rw [keyOffset, keyOffset, hcur]

theorem frameLen_congr (hbuf : a.buf = b.buf) (hcur : a.cur = b.cur) : frameLen len7 a = frameLen len7 b := by
  rw [frameLen, frameLen, hbuf, hcur]

theorem frameKey_congr (hbuf : a.buf = b.buf) (hcur : a.cur = b.cur) : frameKey len7 a = frameKey len7 b := by
  rw [frameKey, frameKey, hbuf, keyOffset_congr len7 hcur]

theorem framePay_congr (hbuf : a.buf = b.buf) (hcur : a.cur = b.cur) : framePay len7 a = framePay len7 b := by
  rw [framePay, framePay, hbuf, keyOffset_congr len7 hcur, frameLen_congr len7 hbuf hcur, frameKey_congr len7 hbuf hcur]

theorem frameEnd_congr (hbuf : a.buf = b.buf) (hcur : a.cur = b.cur) : frameEnd len7 a = frameEnd len7 b := by
  rw [frameEnd, frameEnd, keyOffset_congr len7 hcur, frameLen_congr len7 hbuf hcur]

end

/-- A relation between trackers that no DISPATCH rule sees through under the parameters `p`, and that every write of FT
keeps. -/
structure TrackerRel (p : Params) (V : Tracker → Tracker → Prop) : Prop where
  view   : ∀ {a b}, V a b → a.sameView b
  refl   : ∀ a, V a a
  append : ∀ {a b} (x : Bytes), V a b → a.isEmpty = false → V (a.append x) (b.append x)
  drain  : ∀ {a b}, V a b → V a.drain b.drain
  admits : ∀ {a b}, V a b → admits p a = admits p b

/-- A relation `W` between states that reading a frame keeps, and whose outcomes are related by `rel`. -/
structure ParseSim (p : Params) (V : Tracker → Tracker → Prop) (W rel : State → State → Prop) : Prop where
  tracker    : TrackerRel p V
  buf        : ∀ {a b}, W a b → a.buf = b.buf
  cur        : ∀ {a b}, W a b → a.cur = b.cur
  params     : ∀ {a b}, W a b → a.params = p ∧ b.params = p
  ft         : ∀ {a b}, W a b → V a.ft b.ft
  lenRead    : ∀ {a b} (len7 : BitVec 7), W a b → W (a.lenRead len7) (b.lenRead len7)
  keyRead    : ∀ {a b} (len7 : BitVec 7), W a b → W (a.keyRead len7) (b.keyRead len7)
  atDispatch : ∀ {a b} (len7 : BitVec 7), W a b → W (a.atDispatch len7) (b.atDispatch len7)
  failed     : ∀ {a b} (c : IOCause), W a b → Result.agree rel (raiseIOFailure c a) (raiseIOFailure c b)
  delivered  : ∀ {a b fa fb} (u : LogicalUnit), W a b → V fa fb →
    Result.agree rel (deliver u (a.setFt fa)) (deliver u (b.setFt fb))

section
variable {p : Params} {V : Tracker → Tracker → Prop} {W rel : State → State → Prop} {a b : State}

/-- A unit delivered with FT left alone. -/
theorem ParseSim.delivered_same (h : ParseSim p V W rel) (hab : W a b) (u : LogicalUnit) :
    Result.agree rel (deliver u a) (deliver u b) :=
  h.delivered u hab (h.ft hab)

/-- Related writes of FT are both within the capacity, or both refused. -/
theorem ParseSim.ftWrite_agree (h : ParseSim p V W rel) (hab : W a b) {fa fb : Tracker} (hft : V fa fb)
    (u : LogicalUnit) : Result.agree rel (ftWrite fa a (deliver u)) (ftWrite fb b (deliver u)) := by
  obtain ⟨hpa, hpb⟩ := h.params hab
  rw [ftWrite_eq, ftWrite_eq, hpa, hpb, h.tracker.admits hft]
  split
  · exact h.delivered u hab hft
  · exact rfl

/-- The DISPATCH rules agree on one payload: they test the view of FT and no more of it. -/
theorem ParseSim.dispatchRule_agree (h : ParseSim p V W rel) (hab : W a b) (hpay : a.pay = b.pay)
    (hlen : a.paylen = b.paylen) (i : Instr) :
    Result.agree rel (dispatchRule i a) (dispatchRule i b) := by
  have hd (u : LogicalUnit) := h.delivered_same hab u
  have hft := h.ft hab
  obtain ⟨hempty, hconcat, hshape⟩ := h.tracker.view hft
  cases i <;> simp only [dispatchRule, ← hempty, ← hconcat, ← hpay, ← hlen]
  case contN =>
    cases hopen : a.ft.isEmpty
    case true => exact hd _
    case false => exact h.ftWrite_agree hab (h.tracker.append _ hft hopen) _
  case textN =>
    cases hopen : a.ft.isEmpty
    case true => exact h.ftWrite_agree hab (h.tracker.refl _) _
    case false => exact h.ftWrite_agree hab (h.tracker.append _ hft hopen) _
  case binN => exact h.ftWrite_agree hab (h.tracker.refl _) _
  case contF =>
    cases hopen : a.ft.isEmpty
    case true => exact hd _
    case false =>
      have hdrained (u : LogicalUnit) := h.delivered u hab (h.tracker.drain hft)
      rw [← hshape hopen]
      cases a.ft.shape
      case binary => exact hdrained _
      case text =>
        cases utf8Valid (a.ft.concat ++ a.pay)
        case true => exact hdrained _
        case false => exact hd _
  all_goals
    repeat' split
    all_goals exact hd _

/-- The frames after two headers are cut at the same field, or reach DISPATCH with the same operands. -/
theorem ParseSim.readFrame_agree (h : ParseSim p V W rel) (hab : W a b) (len7 : BitVec 7) (i : Instr) :
    Result.agree rel (readFrame len7 a (dispatchRule i)) (readFrame len7 b (dispatchRule i)) := by
  have hbuf := h.buf hab
  have hq := keyOffset_congr len7 (h.cur hab)
  have hend := frameEnd_congr len7 hbuf (h.cur hab)
  have hext : extCut len7 a = extCut len7 b := by rw [extCut, extCut, hbuf, hq]
  have hkey : keyCut len7 a = keyCut len7 b := by rw [keyCut, keyCut, hext, hbuf, hq]
  have hpay : payCut len7 a = payCut len7 b := by rw [payCut, payCut, hbuf, hq, hend]
  rw [readFrame_eq, readFrame_eq, hext, hkey, hpay]
  cases extCut len7 b
  case true => exact h.failed .extlen hab
  cases keyCut len7 b
  case true => exact h.failed .mask (h.lenRead len7 hab)
  cases payCut len7 b
  case true => exact h.failed .payload (h.keyRead len7 hab)
  case false =>
    refine h.dispatchRule_agree (h.atDispatch len7 hab) ?_ ?_ i
    · rw [atDispatch_pay, atDispatch_pay, framePay_congr len7 hbuf (h.cur hab)]
    · exact congrArg (BitVec.ofNat 64) (frameLen_congr len7 hbuf (h.cur hab))

/-- Received instructions agree. -/
theorem ParseSim.exec_agree (h : ParseSim p V W rel) (hab : W a b) {i : Instr} (he : isEmit i = false) :
    Result.agree rel (exec i a) (exec i b) := by
  cases hk : kindLen7 i with
  | none =>
    rw [exec_headerViolation hk he, exec_headerViolation hk he]
    exact h.delivered_same hab _
  | some len7 =>
    rw [exec_frameKind hk, exec_frameKind hk]
    exact h.readFrame_agree hab len7 i

/-- PARSEs of one buffer from one offset agree. -/
theorem ParseSim.beginParse_agree (h : ParseSim p V W rel) (buf : Memory) (cur0 : Nat)
    (hload : W (a.load buf cur0) (b.load buf cur0)) (hread : W (a.headerRead buf cur0) (b.headerRead buf cur0)) :
    Result.agree rel (beginParse exec buf cur0 a) (beginParse exec buf cur0 b) := by
  by_cases hs : 2 ^ 64 ≤ buf.size
  · rw [beginParse, beginParse, if_pos hs, if_pos hs]
    exact rfl
  · by_cases hc : buf.size < cur0
    · rw [beginParse, beginParse, if_neg hs, if_neg hs, if_pos hc, if_pos hc]
      exact rfl
    · rw [beginParse_eq _ _ _ _ (by omega) (by omega), beginParse_eq _ _ _ _ (by omega) (by omega)]
      split
      · exact h.failed .header hload
      · exact h.exec_agree hread (isEmit_decodeHeader _)

end

/-! ### The view of FT -/

/-- Agreement in the view says that one state is the other with a tracker of the same view. -/
theorem sameView_iff (a b : State) : a.sameView b ↔ ∃ ft, a.ft.sameView ft ∧ b = a.setFt ft := by
  constructor
  · rintro ⟨hb, hview⟩
    exact ⟨b.ft, hview, hb.symm⟩
  · rintro ⟨ft, hview, rfl⟩
    exact ⟨rfl, hview⟩

theorem Tracker.sameView_refl (a : Tracker) : a.sameView a := ⟨rfl, rfl, fun _ => rfl⟩

theorem Tracker.concat_append (a : Tracker) (x : Bytes) : (a.append x).concat = a.concat ++ x := by
  simp [Tracker.concat, Tracker.append]

theorem Tracker.isEmpty_append (a : Tracker) (x : Bytes) : (a.append x).isEmpty = false := by
  simp [Tracker.append]

/-- With no bound on the number of chunks the view is all a DISPATCH rule sees of FT (log 11). -/
theorem trackerRel_sameView {p : Params} (hp : p.ftCapChunks = none) : TrackerRel p Tracker.sameView where
  view := id
  refl := Tracker.sameView_refl
  append := by
    rintro a b x ⟨-, hconcat, hshape⟩ hopen
    refine ⟨?_, ?_, fun _ => hshape hopen⟩
    · rw [Tracker.isEmpty_append, Tracker.isEmpty_append]
    · rw [Tracker.concat_append, Tracker.concat_append, hconcat]
  drain := fun _ => ⟨rfl, rfl, fun hopen => nomatch hopen⟩
  admits := by
    rintro a b ⟨-, hconcat, -⟩
    rw [admits, admits, hconcat, hp]
    rfl

/-- Reading the length takes FT along. -/
theorem lenRead_setFt (len7 : BitVec 7) (s : State) (ft : Tracker) :
    (s.setFt ft).lenRead len7 = (s.lenRead len7).setFt ft := by
  rw [State.lenRead, State.lenRead, frameLen_congr len7 (State.setFt_buf s ft) (State.setFt_cur s ft)]
  rfl

/-- Reading the key takes FT along. -/
theorem keyRead_setFt (len7 : BitVec 7) (s : State) (ft : Tracker) :
    (s.setFt ft).keyRead len7 = (s.keyRead len7).setFt ft := by
  rw [State.keyRead, State.keyRead, lenRead_setFt, frameKey_congr len7 (State.setFt_buf s ft) (State.setFt_cur s ft)]
  rfl

/-- Reading the payload takes FT along. -/
theorem atDispatch_setFt (len7 : BitVec 7) (s : State) (ft : Tracker) :
    (s.setFt ft).atDispatch len7 = (s.atDispatch len7).setFt ft := by
  rw [State.atDispatch, State.atDispatch, keyRead_setFt,
    frameLen_congr len7 (State.setFt_buf s ft) (State.setFt_cur s ft),
    framePay_congr len7 (State.setFt_buf s ft) (State.setFt_cur s ft)]
  rfl

/-- States of one view stay so at every operation of a PARSE. -/
theorem parseSim_sameView {p : Params} (hp : p.ftCapChunks = none) :
    ParseSim p Tracker.sameView (fun a b => a.params = p ∧ a.sameView b) State.sameView where
  tracker := trackerRel_sameView hp
  buf := by
    simp only [sameView_iff]
    rintro a _ ⟨-, ft, -, rfl⟩
    rfl
  cur := by
    simp only [sameView_iff]
    rintro a _ ⟨-, ft, -, rfl⟩
    rfl
  params := by
    simp only [sameView_iff]
    rintro a _ ⟨hpa, ft, -, rfl⟩
    exact ⟨hpa, hpa⟩
  ft := fun h => h.2.2
  lenRead := by
    simp only [sameView_iff]
    rintro a _ len7 ⟨hpa, ft, hview, rfl⟩
    exact ⟨by rwa [lenRead_params], ft, by rwa [lenRead_ft], lenRead_setFt len7 a ft⟩
  keyRead := by
    simp only [sameView_iff]
    rintro a _ len7 ⟨hpa, ft, hview, rfl⟩
    exact ⟨by rwa [keyRead_params], ft, by rwa [keyRead_ft], keyRead_setFt len7 a ft⟩
  atDispatch := by
    simp only [sameView_iff]
    rintro a _ len7 ⟨hpa, ft, hview, rfl⟩
    exact ⟨by rwa [atDispatch_params], ft, by rwa [atDispatch_ft], atDispatch_setFt len7 a ft⟩
  failed := by
    simp only [sameView_iff]
    rintro a _ c ⟨-, ft, hview, rfl⟩
    exact ⟨rfl, hview⟩
  delivered := by
    simp only [sameView_iff]
    rintro a _ fa fb u ⟨-, ft, -, rfl⟩ hview
    exact ⟨rfl, hview⟩

/-- ENCODE reads no state: it writes one result in every state, or is refused in every state (43_encoder.md R160). -/
theorem exec_emit_cases {i : Instr} (he : isEmit i = true) :
    (∃ r, ∀ s, exec i s = .next (s.setEmitted r)) ∨ ∀ s, exec i s = .refused .pingTooLong := by
  cases i
  case emitPong p =>
    by_cases hlen : p.length ≤ 125
    · exact .inl ⟨_, fun s => if_pos hlen⟩
    · exact .inr fun s => if_neg hlen
  case emitText | emitBin | emitReasmText | emitReasmBin | emitClose => exact .inl ⟨_, fun s => rfl⟩
  all_goals cases he

/-- ENCODEs of one unit agree on the view of FT, which they do not touch. -/
theorem beginEncode_agree (u : LogicalUnit) {s : State} {ft : Tracker} (hview : s.ft.sameView ft) :
    Result.agree State.sameView (beginEncode exec u s) (beginEncode exec u (s.setFt ft)) := by
  cases hu : emitInstr u with
  | none =>
    rw [beginEncode_of_emitInstr_none hu, beginEncode_of_emitInstr_none hu]
    exact ⟨rfl, hview⟩
  | some i =>
    rw [beginEncode_of_emitInstr_some hu, beginEncode_of_emitInstr_some hu]
    rcases exec_emit_cases (isEmit_of_emitInstr hu) with ⟨r, e⟩ | e <;> rw [e, e]
    · exact ⟨rfl, hview⟩
    · exact rfl

/-- Settles O49: the two states differ by a tracker of the same view; the requests they serve are the same. -/
theorem trackerViewDecidesEveryStep : Obligations.TrackerViewDecidesEveryStep := by
  unfold Obligations.TrackerViewDecidesEveryStep
  intro s t hp hst
  obtain ⟨ft, hview, rfl⟩ := (sameView_iff s t).1 hst
  cases hpending : s.pending with
  | nil =>
    rw [idleMachineStaysAsItIs s hpending, idleMachineStaysAsItIs (s.setFt ft) hpending]
    exact hst
  | cons r rest =>
    have hparse (buf : Memory) (cur0 : Nat) :
        Result.agree State.sameView (beginParse exec buf cur0 (s.setPending rest))
          (beginParse exec buf cur0 ((s.setPending rest).setFt ft)) :=
      (parseSim_sameView hp).beginParse_agree buf cur0 ⟨rfl, rfl, hview⟩ ⟨rfl, rfl, hview⟩
    have hpending' : (s.setFt ft).pending = r :: rest := hpending
    rw [step_of_pending hpending, step_of_pending hpending']
    cases r with
    | parse buf cur0 => exact hparse buf cur0
    | parseNext =>
      have hcursor : ((s.setFt ft).setPending rest).returnedCursor = (s.setPending rest).returnedCursor := rfl
      rw [serveOne, serveOne, hcursor]
      split
      · exact hparse _ _
      · exact rfl
    | retry buf => exact hparse buf _
    | encode u => exact beginEncode_agree u hview
    | reset => exact ⟨rfl, Tracker.sameView_refl _⟩

/-! ### A retry -/

/-- What PARSE reads is the same in both states: BUF, CUR, the parameters and FT. -/
structure State.SameRead (p : Params) (a b : State) : Prop where
  buf    : a.buf = b.buf
  cur    : a.cur = b.cur
  params : a.params = p ∧ b.params = p
  ft     : a.ft = b.ft

/-- What PARSE reads decides what the host sees of it. -/
theorem parseSim_sameRead (p : Params) : ParseSim p (· = ·) (State.SameRead p) State.sameParse where
  tracker := by
    refine ⟨?_, fun _ => rfl, ?_, ?_, ?_⟩
    · rintro a _ rfl
      exact Tracker.sameView_refl a
    · rintro a _ x rfl -
      rfl
    · rintro a _ rfl
      rfl
    · rintro a _ rfl
      rfl
  buf := State.SameRead.buf
  cur := State.SameRead.cur
  params := State.SameRead.params
  ft := State.SameRead.ft
  lenRead := by
    rintro a b len7 ⟨hbuf, hcur, hparams, hft⟩
    exact ⟨by simpa, by simpa using keyOffset_congr len7 hcur, by simpa, by simpa⟩
  keyRead := by
    rintro a b len7 ⟨hbuf, hcur, hparams, hft⟩
    exact ⟨by simpa, by simpa using keyOffset_congr len7 hcur, by simpa, by simpa⟩
  atDispatch := by
    rintro a b len7 ⟨hbuf, hcur, hparams, hft⟩
    exact ⟨by simpa, by simpa using frameEnd_congr len7 hbuf hcur, by simpa, by simpa⟩
  failed := fun c h => ⟨rfl, h.ft, fun hret => nomatch hret⟩
  delivered := fun u h hft => ⟨rfl, hft, fun _ => h.cur⟩

/-- PARSEs of one buffer from one offset agree in what the host sees, where the parameters and FT are the same. -/
theorem beginParse_sameParse {a b : State} (hparams : a.params = b.params) (hft : a.ft = b.ft) (buf : Memory)
    (cur0 : Nat) : Result.agree State.sameParse (beginParse exec buf cur0 a) (beginParse exec buf cur0 b) :=
  (parseSim_sameRead b.params).beginParse_agree buf cur0 ⟨rfl, rfl, ⟨hparams, rfl⟩, hft⟩ ⟨rfl, rfl, ⟨hparams, rfl⟩, hft⟩

/-- What a failed PARSE leaves for the retry: the offset, the parameters, the requests and FT (60_exceptions.md R186).
-/
theorem beginParse_failed {buf : Memory} {cur0 : Nat} {s t : State} {c : IOCause}
    (h : beginParse exec buf cur0 s = .next t) (hc : t.outcome = some (.ioFailure c)) :
    t.cur0 = cur0 ∧ t.params = s.params ∧ t.pending = s.pending ∧ t.ft = s.ft := by
  rcases beginParse_cases buf cur0 s with ⟨-, e⟩ | ⟨-, -, e⟩ | ⟨-, -, -, e⟩ | ⟨-, -, e⟩ <;> rw [e] at h
  case inr.inr.inl =>
    cases h
    exact ⟨rfl, rfl, rfl, rfl⟩
  case inr.inr.inr =>
    obtain ⟨-, hcur0, hparams, hpending⟩ := exec_sameInput h
    refine ⟨hcur0, hparams, hpending, ?_⟩
    rcases exec_ft_cases h with hft | ⟨-, -, ho⟩ | ⟨-, -, -, m, ho⟩
    · exact hft
    all_goals
      rw [ho] at hc
      cases hc
  all_goals cases h

/-- A result that agrees with a next state is a next state with its outcome. -/
theorem agree_sameParse_next {r : Result} {t : State} (h : Result.agree State.sameParse r (.next t)) :
    ∃ t', r = .next t' ∧ t'.outcome = t.outcome := by
  cases r with
  | next t' => exact ⟨t', rfl, h.1⟩
  | fault f => exact h.elim
  | refused f => exact h.elim

/-- Settles O58: the retry is a PARSE from the same offset, with the parameters and FT of the state before the failure.
-/
theorem retryLeavesNoTraceOfTheFailure : Obligations.RetryLeavesNoTraceOfTheFailure := by
  unfold Obligations.RetryLeavesNoTraceOfTheFailure
  intro s t buf buf' cur0 rest cause hp ht hcause
  rw [step_of_pending hp] at ht
  obtain ⟨hcur0, hparams, hpending, hft⟩ := beginParse_failed ht hcause
  have hretry : step t = beginParse exec buf' cur0 (t.setPending rest) := by
    rw [step_of_pending hpending, ← hcur0]
    rfl
  rw [hretry]
  constructor
  · rw [step_of_pending (s := { s with pending := .parse buf' cur0 :: rest }) rfl]
    exact beginParse_sameParse (a := t.setPending rest) (b := s.setPending rest) hparams hft buf' cur0
  · rintro rfl
    have hfailure : beginParse exec buf' cur0 (s.setPending (.retry buf' :: rest)) = .next t := ht
    have hagree := beginParse_sameParse (a := t.setPending rest) hparams hft buf' cur0
    rw [hfailure] at hagree
    obtain ⟨t', e, ho⟩ := agree_sameParse_next hagree
    exact ⟨t', e, ho.trans hcause⟩

end Sys2Proof.Machine
end
